-- ==== Sys2Proof/Word.lean ====
section
/-! DEFINITION. The data of ZFD: the byte (00_scope.md R5), the frame value (30_encoding.md R70), the three decoder
states (10_state.md R21), the operand values that are not bytes, and the plainest byte arithmetic (R8). -/

namespace Sys2Proof

/-- The unit of every port, register and wire field: an unsigned value 0..255 (00_scope.md R5). -/
abbrev Byte := BitVec 8

/-- The kind of a Data frame; it has exactly two values (30_encoding.md R70). -/
inductive Kind where
  | request
  | response
deriving DecidableEq, Repr

/-- A frame value (30_encoding.md R70). -/
inductive Frame where
  | ack
  | nak
  | can
  | data (length : Byte) (kind : Kind) (commandId : Byte) (payload : List Byte) (checksum : Byte)
deriving DecidableEq, Repr

/-- The decoder states WaitingForFrame, WaitingForLength and ReadingFrame; "exactly the three constructors"
(10_state.md R21). -/
inductive DecState where
  | wff
  | wfl
  | rf
deriving DecidableEq, Repr

/-- The part of the decoder's registers that selects what the next byte means (10_state.md R36,
42_frame_decoder.md R161). -/
structure Phase where
  st : DecState
  len : Byte
  cnt : Byte
deriving DecidableEq, Repr

/-- The write result the transport supplies: `ok`, or a failure after `m` bytes (43_link_io.md R202, R207). -/
inductive WriteResult where
  | ok
  | fail (m : Nat)
deriving DecidableEq, Repr

/-- The five statistics of one set (10_state.md R32). -/
inductive Stat where
  | ack
  | nak
  | can
  | data
  | oof
deriving DecidableEq, Repr

/-- The name of one of the ten counters: `rx.<stat>` or `tx.<stat>` (43_link_io.md R212). -/
inductive Counter where
  | rx (c : Stat)
  | tx (c : Stat)
deriving DecidableEq, Repr

/-- The four agents that take ZFD's steps (60_exceptions.md R250). -/
inductive Agent where
  | rxAgent
  | txAgent
  | host
  | transport
deriving DecidableEq, Repr

/-- `xorfold(l)`: the exclusive OR of a byte list, `0x00` for the empty list (00_scope.md R8). -/
def xorfold : List Byte → Byte
  | [] => 0#8
  | b :: l => b ^^^ xorfold l

end Sys2Proof
end

