-- ==== Sys2Proof/Config.lean ====
section
/-! DEFINITION. The parameters of ZFD (00_scope.md R6), the marker bytes, and the free values: constants without a
body that stand for what the spec leaves unspecified (log 4). -/

namespace Sys2Proof

/-- Start-of-frame marker (00_scope.md R6). -/
def Config.sof : Byte := 0x01#8
/-- ACK frame byte (00_scope.md R6, 30_encoding.md R71). -/
def Config.ack : Byte := 0x06#8
/-- NAK frame byte (00_scope.md R6, 30_encoding.md R71). -/
def Config.nak : Byte := 0x15#8
/-- CAN frame byte (00_scope.md R6, 30_encoding.md R71). -/
def Config.can : Byte := 0x18#8
/-- Kind byte of a Request (00_scope.md R6). -/
def Config.kindReq : Byte := 0x00#8
/-- Kind byte of a Response (00_scope.md R6). -/
def Config.kindRes : Byte := 0x01#8
/-- Checksum seed (00_scope.md R6). -/
def Config.xsumSeed : Byte := 0xFF#8
/-- Payload buffer capacity in bytes, 255 - 3 (00_scope.md R6, D6). -/
def Config.payCap : Nat := 252
/-- What an index of the payload buffer that is not listed reads as. RX_LEN clears the buffer to this value
(42_frame_decoder.md R171). -/
def Config.unlistedByte : Byte := 0x00#8

/-- The parameters a model may take as arguments (00_scope.md R6, I9). They are fixed when the block is built
(10_state.md R37): State holds them and no step writes them (log 6). -/
structure Params where
  /-- smallest valid length byte -/
  lenMin : Nat
  /-- largest valid length byte -/
  lenMax : Nat
  /-- smallest length the encoder accepts -/
  encLenMin : Nat
  /-- largest length the encoder accepts -/
  encLenMax : Nat
  /-- RX_INTERBYTE_TIMEOUT: none, the default, when no timeout exists; else its length in a unit of the realisation. The
  spec has no time, so the length has no effect on a step (log 8) -/
  rxInterbyteTimeout : Option Nat := none
deriving DecidableEq, Repr

/-- The values of 00_scope.md R6. -/
def Params.default : Params :=
  { lenMin := 4, lenMax := 64, encLenMin := 4, encLenMax := 64, rxInterbyteTimeout := none }

/-! Free values: what each datapath register holds after the `d`-th RESET (10_state.md R39 "unspecified", I2 "any
value"; log 4). DESIGN CHOICE of form; safe: no proof can see the value. -/

/-- `len` after the `d`-th RESET. -/
opaque Config.resetLen : Nat → Byte
/-- `cnt` after the `d`-th RESET. -/
opaque Config.resetCnt : Nat → Byte
/-- `kind` after the `d`-th RESET. -/
opaque Config.resetKind : Nat → Byte
/-- `cmd` after the `d`-th RESET. -/
opaque Config.resetCmd : Nat → Byte
/-- `acc` after the `d`-th RESET. -/
opaque Config.resetAcc : Nat → Byte
/-- `len_ok` after the `d`-th RESET. -/
opaque Config.resetLenOk : Nat → Bool
/-- `pay[i]` after the `d`-th RESET. -/
opaque Config.resetPay : Nat → Nat → Byte

/-- Whether the `d`-th abort of an unfinished frame by RX_INTERBYTE_TIMEOUT sends a NAK. The spec gives no rule for the
abort (I8, D17): DESIGN CHOICE, outside this spec, log 8. -/
opaque Config.timeoutNaks : Nat → Bool

end Sys2Proof
end

