-- ==== Sys2Proof/Syntax.lean ====
section
/-! DEFINITION. The operations of ZFD: one constructor per row of spec/opcode_table.json, in the table's order, with
the operands the operation's rule gives it. -/

namespace Sys2Proof

inductive Instr where
  /-- RX_SOF (42_frame_decoder.md R170); operand: the byte 0x01 -/
  | rxSof
  /-- RX_ACK (R166); operand: the byte 0x06 -/
  | rxAck
  /-- RX_NAK (R167); operand: the byte 0x15 -/
  | rxNak
  /-- RX_CAN (R168); operand: the byte 0x18 -/
  | rxCan
  /-- RX_NOISE (R169); operand: a byte that is no marker -/
  | rxNoise (b : Byte)
  /-- RX_LEN (R171); operand: any byte -/
  | rxLen (b : Byte)
  /-- RX_KIND (R172); operand: any byte -/
  | rxKind (b : Byte)
  /-- RX_CMD (R173); operand: any byte -/
  | rxCmd (b : Byte)
  /-- RX_PAY (R174); operand: any byte -/
  | rxPay (b : Byte)
  /-- RX_CHK (R175); operand: any byte, the received checksum -/
  | rxChk (b : Byte)
  /-- ENC_ACK (41_frame_codec.md R134) -/
  | encAck
  /-- ENC_NAK (R135) -/
  | encNak
  /-- ENC_CAN (R136) -/
  | encCan
  /-- ENC_DATA (R137); operands: kind, command id, payload -/
  | encData (kind : Kind) (cmd : Byte) (payload : List Byte)
  /-- XSUM (R130); operands: length, kind byte, command id, payload -/
  | xsum (length kind cmd : Byte) (payload : List Byte)
  /-- hostop4 0x0, no operation (30_encoding.md R83) -/
  | nop
  /-- RESET (70_reset_and_hazards.md R270); operand: the draw `m`, used only while a write is in flight -/
  | reset (m : Nat)
  /-- OPEN (R272) -/
  | openPort
  /-- TX_SUBMIT (43_link_io.md R204); operand: a frame value, whose own length and checksum are ignored -/
  | txSubmit (f : Frame)
  /-- a reserved hostop4 code 0b01xx (30_encoding.md R83); operand: the bits xx -/
  | hostopReserved4to7 (low : BitVec 2)
  /-- a reserved hostop4 code 0b1xxx (30_encoding.md R83); operand: the bits xxx -/
  | hostopReserved8toF (low : BitVec 3)
  /-- BUF_FROM_VALUES (40_payload_buffer.md R101); operand: integers -/
  | bufFromValues (vs : List Int)
  /-- BUF_FROM_BYTES (R102); operand: bytes -/
  | bufFromBytes (bs : List Byte)
  /-- BUF_OF_LENGTH (R103); operand: a natural number -/
  | bufOfLength (n : Nat)
  /-- BUF_GET (R104); operands: a Buffer (by its place in State.bufs), an index -/
  | bufGet (h idx : Nat)
  /-- BUF_SET (R105); operands: a Buffer, an index, a byte -/
  | bufSet (h idx : Nat) (v : Byte)
  /-- BUF_NEXT (R106); operand: a Buffer -/
  | bufNext (h : Nat)
  /-- BUF_NEXT24 (R107); operand: a Buffer -/
  | bufNext24 (h : Nat)
  /-- BUF_HASNEXT (R108); operand: a Buffer -/
  | bufHasNext (h : Nat)
  /-- a reserved bufop4 code 0b1xxx (30_encoding.md R83); operand: the bits xxx -/
  | bufopReserved8toF (low : BitVec 3)
  /-- RESP_TX (43_link_io.md R202); operands: flush draw, write result -/
  | respTx (k : Nat) (r : WriteResult)
  /-- TX_BEGIN (R205); operand: flush draw -/
  | txBegin (k : Nat)
  /-- TX_END (R207); operand: write result -/
  | txEnd (r : WriteResult)
  /-- RX_ARRIVE (R211); operand: a non-empty byte list -/
  | rxArrive (bs : List Byte)
  /-- STATS_READ (R212); operand: the counter's name -/
  | statsRead (c : Counter)
deriving DecidableEq, Repr

/-- The agent that takes the step (60_exceptions.md R250). The pure functions (encoder, checksum, payload cursor) are
applied by the caller, which is the host. -/
def Instr.agent : Instr → Agent
  | .rxSof | .rxAck | .rxNak | .rxCan | .rxNoise _ | .rxLen _ | .rxKind _ | .rxCmd _ | .rxPay _ | .rxChk _ => .rxAgent
  | .respTx _ _ => .rxAgent
  | .txBegin _ | .txEnd _ => .txAgent
  | .rxArrive _ => .transport
  | .encAck | .encNak | .encCan | .encData _ _ _ | .xsum _ _ _ _ => .host
  | .nop | .reset _ | .openPort | .txSubmit _ | .hostopReserved4to7 _ | .hostopReserved8toF _ => .host
  | .bufFromValues _ | .bufFromBytes _ | .bufOfLength _ | .bufGet _ _ | .bufSet _ _ _ => .host
  | .bufNext _ | .bufNext24 _ | .bufHasNext _ | .bufopReserved8toF _ | .statsRead _ => .host

/-- The byte steps of the decoder: the operations whose operand is the byte at the head of `rxq`
(42_frame_decoder.md R160). -/
def Instr.isByteStep : Instr → Bool
  | .rxSof | .rxAck | .rxNak | .rxCan | .rxNoise _ | .rxLen _ | .rxKind _ | .rxCmd _ | .rxPay _ | .rxChk _ => true
  | .encAck | .encNak | .encCan | .encData _ _ _ | .xsum _ _ _ _ => false
  | .nop | .reset _ | .openPort | .txSubmit _ | .hostopReserved4to7 _ | .hostopReserved8toF _ => false
  | .bufFromValues _ | .bufFromBytes _ | .bufOfLength _ | .bufGet _ _ | .bufSet _ _ _ => false
  | .bufNext _ | .bufNext24 _ | .bufHasNext _ | .bufopReserved8toF _ => false
  | .respTx _ _ | .txBegin _ | .txEnd _ | .rxArrive _ | .statsRead _ => false

/-- The cursor operations: each touches Buffers and its returned value only (40_payload_buffer.md R110). -/
def Instr.isCursorOp : Instr → Bool
  | .bufFromValues _ | .bufFromBytes _ | .bufOfLength _ | .bufGet _ _ | .bufSet _ _ _ => true
  | .bufNext _ | .bufNext24 _ | .bufHasNext _ | .bufopReserved8toF _ => true
  | .rxSof | .rxAck | .rxNak | .rxCan | .rxNoise _ | .rxLen _ | .rxKind _ | .rxCmd _ | .rxPay _ | .rxChk _ => false
  | .encAck | .encNak | .encCan | .encData _ _ _ | .xsum _ _ _ _ => false
  | .nop | .reset _ | .openPort | .txSubmit _ | .hostopReserved4to7 _ | .hostopReserved8toF _ => false
  | .respTx _ _ | .txBegin _ | .txEnd _ | .rxArrive _ | .statsRead _ => false

end Sys2Proof
end

