-- ==== Sys2Proof/WellFormed.lean ====
section
/-! DEFINITION. Which operand values the rules allow (`Instr.wf`), and in which decoder phase a byte step is the one
that is selected (`Instr.selectedIn`). -/

namespace Sys2Proof

/-- The four bytes with a marker meaning in WFF (30_encoding.md R76). -/
def isMarker (b : Byte) : Bool :=
  b == Config.sof || b == Config.ack || b == Config.nak || b == Config.can

/-- RX_NOISE takes a byte that is no marker (42_frame_decoder.md R169). -/
def noiseByteOk (b : Byte) : Bool := !isMarker b

/-- RX_ARRIVE takes a non-empty byte list (43_link_io.md R211). -/
def arrivalOk (bs : List Byte) : Bool := !bs.isEmpty

/-- A response is one byte, so its failed write wrote 0 or 1 bytes (43_link_io.md R202). -/
def responseResultOk : WriteResult → Bool
  | .ok => true
  | .fail m => decide (m ≤ 1)

/-- The operand checks that need no state. Draws whose bound is a length of the state (`k`, the `m` of TX_END and
RESET) are read by the operations themselves (log 9). -/
def Instr.wf : Instr → Bool
  | .rxNoise b => noiseByteOk b
  | .rxArrive bs => arrivalOk bs
  | .respTx _ r => responseResultOk r
  | .rxSof | .rxAck | .rxNak | .rxCan | .rxLen _ | .rxKind _ | .rxCmd _ | .rxPay _ | .rxChk _ => true
  | .encAck | .encNak | .encCan | .encData _ _ _ | .xsum _ _ _ _ => true
  | .nop | .reset _ | .openPort | .txSubmit _ | .hostopReserved4to7 _ | .hostopReserved8toF _ => true
  | .bufFromValues _ | .bufFromBytes _ | .bufOfLength _ | .bufGet _ _ | .bufSet _ _ _ => true
  | .bufNext _ | .bufNext24 _ | .bufHasNext _ | .bufopReserved8toF _ => true
  | .txBegin _ | .txEnd _ | .statsRead _ => true

/-- The phases the rules give a meaning in RF: `len >= 3` and `cnt < len` (42_frame_decoder.md R161, I1). -/
def Phase.inRules (p : Phase) : Bool :=
  decide (p.st ≠ .rf) || (decide (3 ≤ p.len.toNat) && decide (p.cnt.toNat < p.len.toNat))

/-- The phase in which a byte step is the selected one (42_frame_decoder.md R161). The operations that consume no
byte are selected in every phase. -/
def Instr.selectedIn (p : Phase) : Instr → Bool
  | .rxSof | .rxAck | .rxNak | .rxCan | .rxNoise _ => decide (p.st = .wff)
  | .rxLen _ => decide (p.st = .wfl)
  | .rxChk _ => decide (p.st = .rf) && p.inRules && decide (p.cnt.toNat + 1 = p.len.toNat)
  | .rxKind _ => decide (p.st = .rf) && p.inRules && decide (p.cnt.toNat = 0)
  | .rxCmd _ => decide (p.st = .rf) && p.inRules && decide (p.cnt.toNat = 1)
  | .rxPay _ =>
    decide (p.st = .rf) && p.inRules && decide (2 ≤ p.cnt.toNat) && decide (p.cnt.toNat + 2 ≤ p.len.toNat)
  | .encAck | .encNak | .encCan | .encData _ _ _ | .xsum _ _ _ _ => true
  | .nop | .reset _ | .openPort | .txSubmit _ | .hostopReserved4to7 _ | .hostopReserved8toF _ => true
  | .bufFromValues _ | .bufFromBytes _ | .bufOfLength _ | .bufGet _ _ | .bufSet _ _ _ => true
  | .bufNext _ | .bufNext24 _ | .bufHasNext _ | .bufopReserved8toF _ => true
  | .respTx _ _ | .txBegin _ | .txEnd _ | .rxArrive _ | .statsRead _ => true

end Sys2Proof
end

