-- ==== Sys2Proof/Decode.lean ====
section
/-! DEFINITION. The decoder and the encoder of operations. An operation is presented at one of ZFD's ports
(`Move`): a wire byte to the RX agent, a 4-bit code to the host command port or to the payload cursor, a frame type
byte to the frame encoder, operands to the checksum generator, or the draws of an agent's own step. Which port it is
presented at tells the formats of spec/opcode_table.json apart, since they reuse the same codes (log 14). The decoder is
total: what names no operation is rejected by name. -/

namespace Sys2Proof

/-- The operand bus of the host command port (D2): the frame of TX_SUBMIT and the draw of RESET. Every code finds a
value there; a code that has no such operand ignores it. -/
structure HostBus where
  frame : Frame := .ack
  draw : Nat := 0
deriving DecidableEq, Repr

/-- The operand bus of the payload cursor: the Buffer's place, an index, a byte, a length, integers and bytes. -/
structure CursorBus where
  buf : Nat := 0
  idx : Nat := 0
  v : Byte := 0#8
  n : Nat := 0
  vs : List Int := []
  bs : List Byte := []
deriving DecidableEq, Repr

/-- The field operands of the frame encoder. -/
structure FrameBus where
  kind : Kind := .request
  cmd : Byte := 0#8
  payload : List Byte := []
deriving DecidableEq, Repr

/-- One entry of the schedule: which agent moves next, at which port, with what operands. -/
inductive Move where
  /-- the RX agent takes its byte step on the byte at the head of `rxq` (42_frame_decoder.md R160) -/
  | rxByte
  /-- RX_INTERBYTE_TIMEOUT runs out, where a realisation has one. Outside this spec (I8; DESIGN CHOICE, log 8) -/
  | rxTimeout
  /-- the RX agent takes RESP_TX with the transport's draws (43_link_io.md R202) -/
  | respond (k : Nat) (r : WriteResult)
  /-- the TX agent takes TX_BEGIN with the transport's draw (R205) -/
  | beginTx (k : Nat)
  /-- the TX agent takes TX_END with the transport's result (R207) -/
  | endTx (r : WriteResult)
  /-- the transport delivers bytes (R211) -/
  | arrive (bs : List Byte)
  /-- a code at the host command port (30_encoding.md R83) -/
  | hostCmd (op : BitVec 4) (bus : HostBus)
  /-- a code at the payload cursor (30_encoding.md R83) -/
  | cursor (op : BitVec 4) (bus : CursorBus)
  /-- a frame type, named by the frame's first byte (30_encoding.md R71, R73), at the frame encoder -/
  | encoder (first : Byte) (bus : FrameBus)
  /-- operands at the checksum generator (41_frame_codec.md R130) -/
  | checksum (length kind cmd : Byte) (payload : List Byte)
  /-- the host reads a counter (43_link_io.md R212) -/
  | readStat (c : Counter)
deriving DecidableEq, Repr

/-- What is fetched for one step: the move, and the byte the transport shows at the head of `rxq`, if any. -/
structure Fetched where
  move : Move
  rx : Option Byte
deriving DecidableEq, Repr

/-- Why a move names no operation of the spec. -/
inductive DecodeError where
  /-- an arrival of no bytes; RX_ARRIVE takes a non-empty list (43_link_io.md R211) -/
  | emptyArrival
  /-- a failed response write of more than one byte (R202) -/
  | responseResult (m : Nat)
  /-- a byte that starts no frame (30_encoding.md R71, R73), at the frame encoder -/
  | noFrameType (first : Byte)
deriving DecidableEq, Repr

/-- What the decoder answers. -/
inductive Decoded where
  /-- this operation is to run -/
  | instr (i : Instr)
  /-- the RX agent has no byte and holds (42_frame_decoder.md R164, case 1) -/
  | hold
  /-- the RX agent aborts an unfinished frame on its timeout; no operation of the spec (log 8) -/
  | timeout
  /-- the registers are outside the rules: RF with `len < 3` or `cnt >= len` (I1) -/
  | outsideRules
  /-- no operation of the spec -/
  | rejected (e : DecodeError)
deriving DecidableEq, Repr

/-- The operation a byte selects in WFF (30_encoding.md R76). -/
def decodeMarker (b : Byte) : Instr :=
  if b = Config.sof then .rxSof
  else if b = Config.ack then .rxAck
  else if b = Config.nak then .rxNak
  else if b = Config.can then .rxCan
  else .rxNoise b

/-- Operation selection, tested in the order of 42_frame_decoder.md R161. -/
def decodeByte (p : Phase) (b : Byte) : Decoded :=
  match p.st with
  | .wff => .instr (decodeMarker b)
  | .wfl => .instr (.rxLen b)
  | .rf =>
    if p.inRules then
      if p.cnt.toNat + 1 = p.len.toNat then .instr (.rxChk b)
      else if p.cnt.toNat = 0 then .instr (.rxKind b)
      else if p.cnt.toNat = 1 then .instr (.rxCmd b)
      else .instr (.rxPay b)
    else .outsideRules

/-- The hostop4 codes (30_encoding.md R83). -/
def decodeHostOp (op : BitVec 4) (bus : HostBus) : Instr :=
  if op = 0x0#4 then .nop
  else if op = 0x1#4 then .reset bus.draw
  else if op = 0x2#4 then .openPort
  else if op = 0x3#4 then .txSubmit bus.frame
  else if op.getLsbD 3 then .hostopReserved8toF (op.setWidth 3)
  else .hostopReserved4to7 (op.setWidth 2)

/-- The bufop4 codes (30_encoding.md R83). -/
def decodeBufOp (op : BitVec 4) (bus : CursorBus) : Instr :=
  if op = 0x0#4 then .bufFromValues bus.vs
  else if op = 0x1#4 then .bufFromBytes bus.bs
  else if op = 0x2#4 then .bufOfLength bus.n
  else if op = 0x3#4 then .bufGet bus.buf bus.idx
  else if op = 0x4#4 then .bufSet bus.buf bus.idx bus.v
  else if op = 0x5#4 then .bufNext bus.buf
  else if op = 0x6#4 then .bufNext24 bus.buf
  else if op = 0x7#4 then .bufHasNext bus.buf
  else .bufopReserved8toF (op.setWidth 3)

/-- The frame type of the encoder, named by the frame's first byte (30_encoding.md R71, R73). -/
def decodeFrameType (first : Byte) (bus : FrameBus) : Decoded :=
  if first = Config.ack then .instr .encAck
  else if first = Config.nak then .instr .encNak
  else if first = Config.can then .instr .encCan
  else if first = Config.sof then .instr (.encData bus.kind bus.cmd bus.payload)
  else .rejected (.noFrameType first)

/-- The decoder: the operation that a fetched move names in decoder phase `p`. -/
def decode (p : Phase) (w : Fetched) : Decoded :=
  match w.move with
  | .rxByte =>
    match w.rx with
    | some b => decodeByte p b
    | none => .hold
  | .rxTimeout => .timeout
  | .respond k .ok => .instr (.respTx k .ok)
  | .respond k (.fail m) => if m ≤ 1 then .instr (.respTx k (.fail m)) else .rejected (.responseResult m)
  | .beginTx k => .instr (.txBegin k)
  | .endTx r => .instr (.txEnd r)
  | .arrive [] => .rejected .emptyArrival
  | .arrive (b :: bs) => .instr (.rxArrive (b :: bs))
  | .hostCmd op bus => .instr (decodeHostOp op bus)
  | .cursor op bus => .instr (decodeBufOp op bus)
  | .encoder first bus => decodeFrameType first bus
  | .checksum length kind cmd payload => .instr (.xsum length kind cmd payload)
  | .readStat c => .instr (.statsRead c)

/-! The encoder, from the same tables. -/

/-- A byte on the wire, taken by the RX agent. -/
def onWire (b : Byte) : Fetched := { move := .rxByte, rx := some b }

/-- A move that takes no byte. -/
def atPort (m : Move) : Fetched := { move := m, rx := none }

/-- How an operation is presented at its port. -/
def encode : Instr → Fetched
  | .rxSof => onWire 0b00000001#8
  | .rxAck => onWire 0b00000110#8
  | .rxNak => onWire 0b00010101#8
  | .rxCan => onWire 0b00011000#8
  | .rxNoise b => onWire b
  | .rxLen b => onWire b
  | .rxKind b => onWire b
  | .rxCmd b => onWire b
  | .rxPay b => onWire b
  | .rxChk b => onWire b
  | .encAck => atPort (.encoder 0b00000110#8 {})
  | .encNak => atPort (.encoder 0b00010101#8 {})
  | .encCan => atPort (.encoder 0b00011000#8 {})
  | .encData k c p => atPort (.encoder 0b00000001#8 { kind := k, cmd := c, payload := p })
  | .xsum l k c p => atPort (.checksum l k c p)
  | .nop => atPort (.hostCmd 0b0000#4 {})
  | .reset m => atPort (.hostCmd 0b0001#4 { draw := m })
  | .openPort => atPort (.hostCmd 0b0010#4 {})
  | .txSubmit f => atPort (.hostCmd 0b0011#4 { frame := f })
  | .hostopReserved4to7 low => atPort (.hostCmd (0b01#2 ++ low) {})
  | .hostopReserved8toF low => atPort (.hostCmd (0b1#1 ++ low) {})
  | .bufFromValues vs => atPort (.cursor 0b0000#4 { vs := vs })
  | .bufFromBytes bs => atPort (.cursor 0b0001#4 { bs := bs })
  | .bufOfLength n => atPort (.cursor 0b0010#4 { n := n })
  | .bufGet h idx => atPort (.cursor 0b0011#4 { buf := h, idx := idx })
  | .bufSet h idx v => atPort (.cursor 0b0100#4 { buf := h, idx := idx, v := v })
  | .bufNext h => atPort (.cursor 0b0101#4 { buf := h })
  | .bufNext24 h => atPort (.cursor 0b0110#4 { buf := h })
  | .bufHasNext h => atPort (.cursor 0b0111#4 { buf := h })
  | .bufopReserved8toF low => atPort (.cursor (0b1#1 ++ low) {})
  | .respTx k r => atPort (.respond k r)
  | .txBegin k => atPort (.beginTx k)
  | .txEnd r => atPort (.endTx r)
  | .rxArrive bs => atPort (.arrive bs)
  | .statsRead c => atPort (.readStat c)

/-! Table words: an instruction given by the bits of its row of spec/opcode_table.json only. -/

/-- The port at which a bare table word is presented. The table's formats reuse the same codes and a bare word does not
say its format, so the model fixes one port per word (log 15): a marker byte is on the wire; a code of four bits that
is no marker is a hostop4 code, but for 0x5 and 0x7, which are bufop4 codes; every other byte is on the wire. A word that
the table gives at most four bits is a hostop4 code. -/
def tableWord (nbits w : Nat) : Fetched :=
  if nbits ≤ 4 then atPort (.hostCmd (BitVec.ofNat 4 w) {})
  else if isMarker (BitVec.ofNat 8 w) then onWire (BitVec.ofNat 8 w)
  else if w = 0x5 ∨ w = 0x7 then atPort (.cursor (BitVec.ofNat 4 w) {})
  else if w < 16 then atPort (.hostCmd (BitVec.ofNat 4 w) {})
  else onWire (BitVec.ofNat 8 w)

/-- The phase in which a bare table word is read: WFF, as after reset (10_state.md R39). -/
def tablePhase : Phase := { st := .wff, len := 0#8, cnt := 0#8 }

/-- The instruction the decoder reads from a bare table word. -/
def decodeTableWord (nbits w : Nat) : Option Instr :=
  match decode tablePhase (tableWord nbits w) with
  | .instr i => some i
  | .hold => none
  | .timeout => none
  | .outsideRules => none
  | .rejected _ => none

end Sys2Proof
end

