-- ==== Sys2Proof/Machine/State.lean ====
section
/-! DEFINITION. The state of ZFD (10_state.md R20 to R35), the Buffers of the payload cursor (40_payload_buffer.md
R100), the model's own fields, the reasons a step can stop, and the state after power-on reset. -/

namespace Sys2Proof.Machine

/-- A byte store held sparsely: (index, byte) pairs in one canonical form, `Memory.wf`. An index that is not listed reads
as `Config.unlistedByte` (log 5). -/
abbrev Memory := List Host.Cell

/-- The canonical form: indices strictly rising, and no entry equal to what an unlisted index reads as. -/
def Memory.wf (m : Memory) : Bool :=
  decide (m.Pairwise (fun x y => x.1 < y.1)) && m.all (fun c => decide (c.2 ≠ Config.unlistedByte))

/-- The pending response register's values (10_state.md R29). -/
inductive Resp where
  | none
  | respAck
  | respNak
deriving DecidableEq, Repr

/-- The host transmit slot's values (10_state.md R30). -/
inductive TxSlot where
  | idle
  | queued (f : Frame) (w : List Byte)
  | active (f : Frame) (w : List Byte)
deriving DecidableEq, Repr

/-- The half-duplex lock's values (10_state.md R31). -/
inductive Lock where
  | free
  | heldRx
  | heldTx
deriving DecidableEq, Repr

/-- One set of statistics counters, unbounded naturals (10_state.md R32; log 7). -/
structure Stats where
  ack : Nat := 0
  nak : Nat := 0
  can : Nat := 0
  data : Nat := 0
  oof : Nat := 0
deriving DecidableEq, Repr

/-- The conditions reported in `ev`, with the information 60_exceptions.md R240 records for each. -/
inductive Report where
  /-- code 0x01: the length byte -/
  | malformedLength (b : Byte)
  /-- code 0x02: the kind byte -/
  | malformedKind (kind : Byte)
  /-- code 0x03: received and computed checksum -/
  | checksumMismatch (received computed : Byte)
  /-- code 0x04: the length byte -/
  | lengthOutOfRange (b : Byte)
  /-- code 0x05: no information -/
  | transportIoError
  /-- code 0x06: the length `n + 3` -/
  | encodeLengthError (length : Nat)
  /-- code 0x07: the host code -/
  | illegalHostOp (code : BitVec 4)
deriving DecidableEq, Repr

/-- The faults of a cursor operation, returned to its caller, with the information 60_exceptions.md R240 records. -/
inductive BufFault where
  /-- code 0x10: the cursor -/
  | underflow (pos : Nat)
  /-- code 0x11: the index -/
  | index (i : Nat)
  /-- code 0x12: the place of the first value outside 0..255 -/
  | value (j : Nat)
  /-- code 0x13: the cursor code -/
  | illegalOp (code : BitVec 4)
deriving DecidableEq, Repr

/-- An output event (10_state.md R33). -/
inductive Event where
  | frameOut (f : Frame) (chkOk lenOk : Bool)
  | report (r : Report)
deriving DecidableEq, Repr

/-- A payload cursor Buffer: `N = data.length` bytes and the read cursor (40_payload_buffer.md R100). -/
structure Buffer where
  data : List Byte
  pos : Nat
deriving DecidableEq, Repr

/-- What an operation returned to its caller (log 11). -/
inductive Ret where
  /-- no operation has returned anything yet -/
  | nothing
  /-- a Buffer was constructed; it stands at this place of `bufs` -/
  | buffer (h : Nat)
  /-- BUF_SET returned the written Buffer (40_payload_buffer.md R105) -/
  | done
  /-- BUF_GET, BUF_NEXT or XSUM returned a byte -/
  | byte (v : Byte)
  /-- BUF_NEXT24 returned 24 bits -/
  | word24 (v : BitVec 24)
  /-- BUF_HASNEXT returned a truth value -/
  | flag (b : Bool)
  /-- a cursor operation ended in a fault (R110) -/
  | bufFault (f : BufFault)
  /-- the encoder returned wire bytes (41_frame_codec.md R133) -/
  | bytes (w : List Byte)
  /-- the encoder was given a frame that is not admitted, and encoded nothing (R138; log 12) -/
  | notEncoded (length : Nat)
  /-- STATS_READ returned a count (43_link_io.md R212) -/
  | count (n : Nat)
deriving DecidableEq, Repr

/-- The state of the block, of its environment, and the model's own fields. -/
structure State where
  /-- the parameters, fixed when the block is built (10_state.md R37) -/
  params : Params
  /-- decoder state register (10_state.md R21) -/
  st : DecState
  /-- length byte of the frame under assembly (R22) -/
  len : Byte
  /-- bytes consumed in RF for the current frame (R23) -/
  cnt : Byte
  /-- raw kind byte (R24) -/
  kind : Byte
  /-- command-id byte (R25) -/
  cmd : Byte
  /-- payload buffer, indices 0..251 (R26) -/
  pay : Memory
  /-- running checksum (R27) -/
  acc : Byte
  /-- the flag `len_ok` (R28) -/
  lenOk : Bool
  /-- pending response (R29) -/
  resp : Resp
  /-- host transmit slot (R30) -/
  tx : TxSlot
  /-- the counters `rx.*` (R32) -/
  rxStats : Stats
  /-- the counters `tx.*` (R32) -/
  txStats : Stats
  /-- output event trace (R33) -/
  ev : List Event
  /-- received bytes not yet consumed, next one first (R34) -/
  rxq : List Byte
  /-- bytes written to the transport, in write order (R35) -/
  txw : List Byte
  /-- the Buffers constructed so far, in order of construction (40_payload_buffer.md R100; log 10) -/
  bufs : List Buffer
  /-- the model's own: what the last returning operation returned (log 11) -/
  ret : Ret
  /-- the model's own: the moves still to be taken (43_link_io.md R210, 60_exceptions.md R250; log 1) -/
  sched : List Move
  /-- the model's own: how many groups of free values have been used (log 4, log 8) -/
  draws : Nat
deriving DecidableEq, Repr

/-- Why the machine stops with a fault. -/
inductive Fault where
  /-- Raised by a byte step in RF with `len < 3` or `cnt >= len`: states the rules give no meaning (60_exceptions.md
  R241, I1). Safe: no rule reaches such a state, and the model stops where a realisation goes on. -/
  | decoderOutsideRules
deriving DecidableEq, Repr

/-- Why the machine refuses a move. -/
inductive Refusal where
  /-- Raised by the dispatch for an operation that has no meaning yet. Safe. No arm raises it. -/
  | notModelled (mnemonic : String)
  /-- Raised by the step for a schedule entry that names no operation of the spec. Safe: the spec has no such step. -/
  | noOperation (e : DecodeError)
deriving DecidableEq, Repr

/-- The power-on state (10_state.md R39, 70_reset_and_hazards.md R271). The registers the spec leaves unspecified hold
zero (DESIGN CHOICE, unsafe, log 3); the model's own fields are empty (log 1, log 4, log 11). -/
def State.reset : State where
  params := Params.default
  st := .wff
  len := 0x00#8
  cnt := 0x00#8
  kind := 0x00#8
  cmd := 0x00#8
  pay := []
  acc := 0x00#8
  lenOk := false
  resp := .none
  tx := .idle
  rxStats := {}
  txStats := {}
  ev := []
  rxq := []
  txw := []
  bufs := []
  ret := .nothing
  sched := []
  draws := 0

end Sys2Proof.Machine
end

