-- ==== Sys2Proof/Machine/Operands.lean ====
section
/-! DEFINITION. Operand forms: the kind byte, big-endian assembly, byte stores, the payload read out of `pay`, Buffer
values, and the places that select a decoder phase. -/

namespace Sys2Proof.Machine

/-- `kindByte` (41_frame_codec.md R139). -/
def kindByte : Kind → Byte
  | .request => Config.kindReq
  | .response => Config.kindRes

/-- `kindOf`, undefined for 0x02..0xFF (41_frame_codec.md R139, 30_encoding.md R70). -/
def kindOf (b : Byte) : Option Kind :=
  if b = Config.kindReq then some .request
  else if b = Config.kindRes then some .response
  else none

/-- `ftype`: the statistics counter of a frame (41_frame_codec.md R140). -/
def ftype : Frame → Stat
  | .ack => .ack
  | .nak => .nak
  | .can => .can
  | .data _ _ _ _ _ => .data

/-- The 2-bit code of `st` in a synchronous realisation (10_state.md R21). -/
def stBits : DecState → BitVec 2
  | .wff => 0b00#2
  | .wfl => 0b01#2
  | .rf => 0b10#2

/-- How a realisation reads the 2-bit code: 0b11, which no rule writes, is read as WFF (10_state.md R21). -/
def stOfBits (b : BitVec 2) : DecState :=
  if b = 0b01#2 then .wfl else if b = 0b10#2 then .rf else .wff

/-- One byte of a byte store. -/
def Memory.read : Memory → Nat → Byte
  | [], _ => Config.unlistedByte
  | (k, v) :: m, a => if k = a then v else Memory.read m a

/-- An entry for index `a` in front of `m`, left out when its value is the one an unlisted index reads as. -/
def Memory.consCell (a : Nat) (v : Byte) (m : Memory) : Memory :=
  if v = Config.unlistedByte then m else (a, v) :: m

/-- Writing one byte of a byte store (`MemWrite`, 00_scope.md R8); keeps the canonical form. -/
def Memory.write : Memory → Nat → Byte → Memory
  | [], a, v => Memory.consCell a v []
  | (k, w) :: m, a, v =>
    if a < k then Memory.consCell a v ((k, w) :: m)
    else if a = k then Memory.consCell a v m
    else (k, w) :: Memory.write m a v

/-- The store whose index `start + i` holds `f (start + i)` for `i < n`. -/
def Memory.tabulateFrom (f : Nat → Byte) : Nat → Nat → Memory
  | _, 0 => []
  | start, n + 1 => Memory.consCell start (f start) (Memory.tabulateFrom f (start + 1) n)

/-- The bytes at indices `0 .. n-1`, in order. -/
def Memory.bytes (m : Memory) (n : Nat) : List Byte :=
  (List.range n).map m.read

/-- `(b0 << 8(n-1)) | ... | b(n-1)`: an unsigned big-endian integer (00_scope.md R8, 20_memory.md R52). -/
def beNat (l : List Byte) : Nat :=
  l.foldl (fun acc b => acc * 256 + b.toNat) 0

/-- `MemRead(buf, i, n)` (00_scope.md R8). -/
def memRead (buf : List Byte) (i n : Nat) : Nat :=
  beNat ((buf.drop i).take n)

/-- The payload of the frame under assembly, `pay[0 .. len-3)` (10_state.md R26). -/
def State.payload (s : State) : List Byte :=
  s.pay.bytes (s.len.toNat - 3)

/-- The registers that select the next byte's operation (42_frame_decoder.md R161). -/
def State.phase (s : State) : Phase :=
  { st := s.st, len := s.len, cnt := s.cnt }

/-- A Buffer over given bytes, cursor at the start (40_payload_buffer.md R102). -/
def Buffer.ofBytes (bs : List Byte) : Buffer :=
  { data := bs, pos := 0 }

/-- Whether an integer fits in a byte (40_payload_buffer.md R101). -/
def fitsByte (v : Int) : Bool :=
  decide (0 ≤ v) && decide (v ≤ 255)

/-- BUF_FROM_VALUES as a function (40_payload_buffer.md R101): the fault names the first value that does not fit. -/
def Buffer.ofValues (vs : List Int) : Except BufFault Buffer :=
  match vs.findIdx? (fun v => !fitsByte v) with
  | some j => .error (.value j)
  | none => .ok (Buffer.ofBytes (vs.map (BitVec.ofInt 8)))

/-- BUF_OF_LENGTH as a function (R103). -/
def Buffer.zeros (n : Nat) : Buffer :=
  Buffer.ofBytes (List.replicate n 0x00#8)

/-- BUF_GET as a function (R104). -/
def Buffer.get (b : Buffer) (i : Nat) : Except BufFault Byte :=
  if i < b.data.length then .ok (b.data.getD i 0#8) else .error (.index i)

/-- BUF_SET as a function (R105). -/
def Buffer.set (b : Buffer) (i : Nat) (v : Byte) : Except BufFault Buffer :=
  if i < b.data.length then .ok { b with data := b.data.set i v } else .error (.index i)

/-- BUF_NEXT as a function (R106). -/
def Buffer.next (b : Buffer) : Except BufFault (Byte × Buffer) :=
  if b.pos < b.data.length then
    .ok (BitVec.ofNat 8 (memRead b.data b.pos 1), { b with pos := b.pos + 1 })
  else .error (.underflow b.pos)

/-- BUF_NEXT24 as a function (R107). -/
def Buffer.next24 (b : Buffer) : Except BufFault (BitVec 24 × Buffer) :=
  if b.pos + 3 ≤ b.data.length then
    .ok (BitVec.ofNat 24 (memRead b.data b.pos 3), { b with pos := b.pos + 3 })
  else .error (.underflow b.pos)

/-- BUF_HASNEXT as a function (R108). -/
def Buffer.hasNext (b : Buffer) : Bool :=
  decide (b.pos < b.data.length)

/-- The Buffer over a decoded frame's payload (R109); a single-byte frame has none. -/
def Frame.payloadBuffer : Frame → Option Buffer
  | .data _ _ _ p _ => some (Buffer.ofBytes p)
  | .ack | .nak | .can => none

end Sys2Proof.Machine
end

