-- ==== Sys2Proof/Machine/Flags.lean ====
section
/-! DEFINITION. The checksum and every flag or code the rules compute: XSUM, `chk_ok`, `len_ok`, encoder admission,
the lock, the condition codes, and the wire form of a frame. -/

namespace Sys2Proof.Machine

/-- XSUM, the checksum function (41_frame_codec.md R130). -/
def xsum (length kind cmd : Byte) (p : List Byte) : Byte :=
  Config.xsumSeed ^^^ length ^^^ kind ^^^ cmd ^^^ xorfold p

/-- `acc` as RX_LEN seeds it (42_frame_decoder.md R171). -/
def accSeed (length : Byte) : Byte := Config.xsumSeed ^^^ length

/-- `acc` after one more byte (R172 to R174). -/
def accStep (acc b : Byte) : Byte := acc ^^^ b

/-- `chk_ok` (42_frame_decoder.md R175). -/
def chkFlag (acc b : Byte) : Bool := b == acc

/-- `len_ok`: `LEN_MIN <= len <= LEN_MAX` (10_state.md R28, 42_frame_decoder.md R171). -/
def lenFlag (ps : Params) (b : Byte) : Bool :=
  decide (ps.lenMin ≤ b.toNat) && decide (b.toNat ≤ ps.lenMax)

/-- The length byte cannot be assembled: the payload size would be negative (42_frame_decoder.md R171). -/
def lenMalformed (b : Byte) : Bool := decide (b.toNat < 3)

/-- Encoder admission of a payload of `n` bytes (41_frame_codec.md R138). -/
def admitted (ps : Params) (n : Nat) : Bool :=
  decide (ps.encLenMin ≤ n + 3) && decide (n + 3 ≤ ps.encLenMax) && decide (n + 3 ≤ 255)

/-- Encoder admission of a frame; the single-byte frames are always admitted (R138). -/
def frameAdmitted (ps : Params) : Frame → Bool
  | .ack | .nak | .can => true
  | .data _ _ _ p _ => admitted ps p.length

/-- The length byte of a Data frame with payload `p` (30_encoding.md R72). -/
def lengthByte (p : List Byte) : Byte := BitVec.ofNat 8 (p.length + 3)

/-- The frame that is sent: length and checksum are computed, supplied ones are ignored (41_frame_codec.md R137). -/
def completeFrame : Frame → Frame
  | .ack => .ack
  | .nak => .nak
  | .can => .can
  | .data _ k c p _ => .data (lengthByte p) k c p (xsum (lengthByte p) (kindByte k) c p)

/-- ENC_DATA (41_frame_codec.md R137). -/
def encodeData (k : Kind) (c : Byte) (p : List Byte) : List Byte :=
  [Config.sof, lengthByte p, kindByte k, c] ++ p ++ [xsum (lengthByte p) (kindByte k) c p]

/-- `encode(f)`, the wire bytes of a frame (41_frame_codec.md R133). -/
def encodeFrame : Frame → List Byte
  | .ack => [Config.ack]
  | .nak => [Config.nak]
  | .can => [Config.can]
  | .data _ k c p _ => encodeData k c p

/-- The half-duplex lock, a function of `st` and `tx` (10_state.md R31). -/
def State.lock (s : State) : Lock :=
  match s.st, s.tx with
  | .wfl, _ => .heldRx
  | .rf, _ => .heldRx
  | .wff, .active _ _ => .heldTx
  | .wff, .idle => .free
  | .wff, .queued _ _ => .free

/-- The byte step finds registers the rules give no meaning (I1). -/
def State.outsideRules (s : State) : Bool := !s.phase.inRules

/-- The condition code of a report (60_exceptions.md R240). -/
def Report.code : Report → Byte
  | .malformedLength _ => 0x01#8
  | .malformedKind _ => 0x02#8
  | .checksumMismatch _ _ => 0x03#8
  | .lengthOutOfRange _ => 0x04#8
  | .transportIoError => 0x05#8
  | .encodeLengthError _ => 0x06#8
  | .illegalHostOp _ => 0x07#8

/-- The condition code of a cursor fault (60_exceptions.md R240). -/
def BufFault.code : BufFault → Byte
  | .underflow _ => 0x10#8
  | .index _ => 0x11#8
  | .value _ => 0x12#8
  | .illegalOp _ => 0x13#8

/-- One counter of a set. -/
def Stats.get (x : Stats) : Stat → Nat
  | .ack => x.ack
  | .nak => x.nak
  | .can => x.can
  | .data => x.data
  | .oof => x.oof

/-- One counter of a set, one more (10_state.md R32: "each write adds 1"). -/
def Stats.bump (x : Stats) : Stat → Stats
  | .ack => { x with ack := x.ack + 1 }
  | .nak => { x with nak := x.nak + 1 }
  | .can => { x with can := x.can + 1 }
  | .data => { x with data := x.data + 1 }
  | .oof => { x with oof := x.oof + 1 }

/-- What a realisation whose counters are `width` bits wide shows for a count (10_state.md R32; log 7). -/
def countOfWidth (width n : Nat) : Nat := n % 2 ^ width

end Sys2Proof.Machine
end

