-- ==== Sys2Proof/Machine/Ops.lean ====
section
/-! DEFINITION. The named operations over the state that the meanings are written with: events, the wire, the flush,
statistics, error entry, the byte step, the send sequence, the Buffers. -/

namespace Sys2Proof.Machine

/-- The outcome of a step of ZFD. -/
abbrev Result := Host.Outcome State Fault Refusal

/-- `emit(E)` (00_scope.md R8). -/
def State.emit (s : State) (e : Event) : State := { s with ev := s.ev ++ [e] }

/-- `report(code)` (00_scope.md R8). -/
def State.report (s : State) (r : Report) : State := s.emit (.report r)

/-- `wire_out(l)` (00_scope.md R8). -/
def State.wireOut (s : State) (l : List Byte) : State := { s with txw := s.txw ++ l }

/-- `flush_input(k)`: keep the first `k` bytes (43_link_io.md R206). A draw above `len(rxq)` keeps them all (log 9). -/
def State.flushInput (s : State) (k : Nat) : State := { s with rxq := s.rxq.take k }

/-- `rxq <- tail(rxq)` (42_frame_decoder.md R160). -/
def State.consume (s : State) : State := { s with rxq := s.rxq.tail }

/-- One more in a counter of `rx.*` (42_frame_decoder.md R165). -/
def State.countRx (s : State) (c : Stat) : State := { s with rxStats := s.rxStats.bump c }

/-- One more in a counter of `tx.*` (43_link_io.md R207). -/
def State.countTx (s : State) (c : Stat) : State := { s with txStats := s.txStats.bump c }

/-- An operation returns a value to its caller (log 11). -/
def State.returns (s : State) (r : Ret) : State := { s with ret := r }

/-- `resync(code)`, the decoder's error entry (42_frame_decoder.md R162, 60_exceptions.md R245): report, back to WFF, which
releases the lock, and a NAK to send. It saves nothing. -/
def State.resync (s : State) (r : Report) : State :=
  { s.report r with st := .wff, resp := .respNak }

/-- An unfinished frame is dropped, which releases the lock, and nothing is reported; whether a NAK is then sent is free.
The spec gives no rule for this abort: DESIGN CHOICE, outside this spec (I8, D17; log 8). -/
def State.abortFrame (s : State) : State :=
  { s with
    st := .wff
    resp := if Config.timeoutNaks s.draws then .respNak else s.resp
    draws := s.draws + 1 }

/-- The timeout's turn: a frame under assembly whose bytes stopped arriving is aborted, where RX_INTERBYTE_TIMEOUT is
present. Where it is absent, which is the default, there is no timeout (00_scope.md R6, 42_frame_decoder.md R178). -/
def State.interbyteTimeout (s : State) : State :=
  if s.params.rxInterbyteTimeout.isSome ∧ s.st ≠ .wff ∧ s.rxq = [] then s.abortFrame else s

/-- The common part of the byte steps (42_frame_decoder.md R160): the step exists when `b` is at the head of `rxq`, no
response is pending and the operation is selected (`sel`); it consumes `b` and does `f`. Otherwise the agent holds (log 2).
Registers outside the rules fault (I1, log 13). -/
def byteStep (b : Byte) (sel : Bool) (f : State → State) (s : State) : Result :=
  if s.rxq.head? = some b ∧ s.resp = .none ∧ sel = true then
    if s.outsideRules = true then .fault .decoderOutsideRules else .next (f s.consume)
  else .next s

/-- Stages 2 to 4 of the send sequence (43_link_io.md R203, R207): on success the whole frame goes out and is counted; on
failure a part from its start goes out, and the failure is reported and not counted. -/
def State.sendResult (s : State) (f : Frame) (w : List Byte) (r : WriteResult) : State :=
  match r with
  | .ok => (s.wireOut w).countTx (ftype f)
  | .fail m => (s.wireOut (w.take m)).report .transportIoError

/-- The frame a pending response sends (43_link_io.md R202). -/
def Resp.frame : Resp → Option Frame
  | .none => Option.none
  | .respAck => some .ack
  | .respNak => some .nak

/-- What RESET puts on the wire: the part of a write in flight that had gone out (70_reset_and_hazards.md R270). -/
def TxSlot.cutShort (t : TxSlot) (m : Nat) : List Byte :=
  match t with
  | .idle => []
  | .queued _ _ => []
  | .active _ w => w.take m

/-- Every item of block state at its reset value (10_state.md R39); the unspecified ones take free values (log 4). -/
def State.resetBlock (s : State) : State :=
  { s with
    st := .wff
    len := Config.resetLen s.draws
    cnt := Config.resetCnt s.draws
    kind := Config.resetKind s.draws
    cmd := Config.resetCmd s.draws
    pay := Memory.tabulateFrom (Config.resetPay s.draws) 0 Config.payCap
    acc := Config.resetAcc s.draws
    lenOk := Config.resetLenOk s.draws
    resp := .none
    tx := .idle
    rxStats := {}
    txStats := {}
    draws := s.draws + 1 }

/-- A constructor's Buffer joins the Buffers, and its place is returned (log 10). -/
def State.newBuffer (s : State) (b : Buffer) : State :=
  { s with bufs := s.bufs ++ [b], ret := .buffer s.bufs.length }

/-- A Buffer is replaced by the one an operation returned. -/
def State.putBuffer (s : State) (h : Nat) (b : Buffer) : State :=
  { s with bufs := s.bufs.set h b }

/-- A cursor operation on the Buffer at place `h`: its value and the new Buffer, or its fault with everything unchanged
(40_payload_buffer.md R100, R110). Without such a Buffer there is no operation (log 10). -/
def withBuffer {α : Type} (h : Nat) (op : Buffer → Except BufFault (α × Buffer)) (val : α → Ret) (s : State) : Result :=
  match s.bufs[h]? with
  | Option.none => .next s
  | some b =>
    match op b with
    | .ok (v, b') => .next ((s.putBuffer h b').returns (val v))
    | .error e => .next (s.returns (.bufFault e))

end Sys2Proof.Machine
end

