-- ==== Sys2Proof/Machine/Codec.lean ====
section
/-! DEFINITION. The pure functions of ZFD as operations: the checksum generator and the frame encoder
(41_frame_codec.md R130 to R138). Each returns its value to the caller and changes nothing else (R133; log 11). -/

namespace Sys2Proof.Machine

/-- The encoder applied to a frame: its bytes, or nothing where the frame is not admitted (R138; log 12). -/
def encoderReturns (f : Frame) (s : State) : State :=
  match f with
  | .ack => s.returns (.bytes (encodeFrame .ack))
  | .nak => s.returns (.bytes (encodeFrame .nak))
  | .can => s.returns (.bytes (encodeFrame .can))
  | .data l k c p x =>
    if admitted s.params p.length then s.returns (.bytes (encodeFrame (.data l k c p x)))
    else s.returns (.notEncoded (p.length + 3))

/-- ENC_ACK (41_frame_codec.md R134). -/
def execEncAck (s : State) : Result := .next (encoderReturns .ack s)

/-- ENC_NAK (R135). -/
def execEncNak (s : State) : Result := .next (encoderReturns .nak s)

/-- ENC_CAN (R136). -/
def execEncCan (s : State) : Result := .next (encoderReturns .can s)

/-- ENC_DATA (R137). The encoder computes length and checksum, so the operation has no such operands. -/
def execEncData (k : Kind) (c : Byte) (p : List Byte) (s : State) : Result :=
  .next (encoderReturns (completeFrame (.data 0x00#8 k c p 0x00#8)) s)

/-- XSUM (R130), total on every input. -/
def execXsum (length kind cmd : Byte) (p : List Byte) (s : State) : Result :=
  .next (s.returns (.byte (xsum length kind cmd p)))

end Sys2Proof.Machine
end

