-- ==== Sys2Proof/Machine/Command.lean ====
section
/-! DEFINITION. The operations of the host command port: NOP, RESET, OPEN, TX_SUBMIT and the reserved hostop4 codes
(30_encoding.md R83, 43_link_io.md R204, 70_reset_and_hazards.md R270, R272). -/

namespace Sys2Proof.Machine

/-- hostop4 0x0, no operation (30_encoding.md R83). -/
def execNop (s : State) : Result := .next s

/-- RESET (70_reset_and_hazards.md R270), always enabled. -/
def execReset (m : Nat) (s : State) : Result :=
  .next (s.wireOut (s.tx.cutShort m)).resetBlock

/-- OPEN (R272); while `tx` is not Idle the host has no move (log 2). -/
def execOpenPort (s : State) : Result :=
  match s.tx with
  | .idle => .next { s with st := .wff, resp := .none, tx := .queued .nak (encodeFrame .nak) }
  | .queued _ _ => .next s
  | .active _ _ => .next s

/-- What TX_SUBMIT does with a frame while `tx` is Idle: queue it complete and encoded, or report it (43_link_io.md R204). -/
def submitFrame (f : Frame) (s : State) : State :=
  match f with
  | .ack => { s with tx := .queued .ack (encodeFrame .ack) }
  | .nak => { s with tx := .queued .nak (encodeFrame .nak) }
  | .can => { s with tx := .queued .can (encodeFrame .can) }
  | .data l k c p x =>
    if admitted s.params p.length then
      { s with tx := .queued (completeFrame (.data l k c p x)) (encodeFrame (.data l k c p x)) }
    else s.report (.encodeLengthError (p.length + 3))

/-- TX_SUBMIT (43_link_io.md R204); while `tx` is not Idle the host has no move (log 2). -/
def execTxSubmit (f : Frame) (s : State) : Result :=
  match s.tx with
  | .idle => .next (submitFrame f s)
  | .queued _ _ => .next s
  | .active _ _ => .next s

/-- A reserved code is reported and otherwise ignored (30_encoding.md R83, 60_exceptions.md R240). -/
def illegalHostOp (code : BitVec 4) (s : State) : State := s.report (.illegalHostOp code)

/-- The reserved hostop4 codes 0x4..0x7 (30_encoding.md R83). -/
def execHostopReserved4to7 (low : BitVec 2) (s : State) : Result :=
  .next (illegalHostOp (0b01#2 ++ low) s)

/-- The reserved hostop4 codes 0x8..0xF (30_encoding.md R83). -/
def execHostopReserved8toF (low : BitVec 3) (s : State) : Result :=
  .next (illegalHostOp (0b1#1 ++ low) s)

end Sys2Proof.Machine
end

