-- ==== Sys2Proof/Machine/Cursor.lean ====
section
/-! DEFINITION. The payload cursor operations (40_payload_buffer.md R101 to R108) and the reserved bufop4 codes
(30_encoding.md R83). A fault is the operation's result; nothing else changes (R110). -/

namespace Sys2Proof.Machine

/-- BUF_FROM_VALUES (40_payload_buffer.md R101). -/
def execBufFromValues (vs : List Int) (s : State) : Result :=
  match Buffer.ofValues vs with
  | .ok b => .next (s.newBuffer b)
  | .error e => .next (s.returns (.bufFault e))

/-- BUF_FROM_BYTES (R102). -/
def execBufFromBytes (bs : List Byte) (s : State) : Result := .next (s.newBuffer (Buffer.ofBytes bs))

/-- BUF_OF_LENGTH (R103). -/
def execBufOfLength (n : Nat) (s : State) : Result := .next (s.newBuffer (Buffer.zeros n))

/-- BUF_GET (R104): the Buffer is unchanged. -/
def execBufGet (h idx : Nat) (s : State) : Result :=
  withBuffer h (fun b => (b.get idx).map (fun v => (v, b))) .byte s

/-- BUF_SET (R105): the cursor is unchanged. -/
def execBufSet (h idx : Nat) (v : Byte) (s : State) : Result :=
  withBuffer h (fun b => (b.set idx v).map (fun b' => ((), b'))) (fun _ => .done) s

/-- BUF_NEXT (R106). -/
def execBufNext (h : Nat) (s : State) : Result := withBuffer h Buffer.next .byte s

/-- BUF_NEXT24 (R107). -/
def execBufNext24 (h : Nat) (s : State) : Result := withBuffer h Buffer.next24 .word24 s

/-- BUF_HASNEXT (R108): the Buffer is unchanged. -/
def execBufHasNext (h : Nat) (s : State) : Result :=
  withBuffer h (fun b => .ok (b.hasNext, b)) .flag s

/-- The reserved bufop4 codes 0x8..0xF: refused with BufferIllegalOp as the result (30_encoding.md R83, I15). -/
def execBufopReserved8toF (low : BitVec 3) (s : State) : Result :=
  .next (s.returns (.bufFault (.illegalOp (0b1#1 ++ low))))

end Sys2Proof.Machine
end

