-- ==== Sys2Proof/Machine/Decoder.lean ====
section
/-! DEFINITION. The byte steps of the frame decoder (42_frame_decoder.md R166 to R177). -/

namespace Sys2Proof.Machine

/-- Completion of a single-byte frame (42_frame_decoder.md R165): both flags are 1 (10_state.md R33). -/
def completeSingle (f : Frame) (s : State) : State :=
  (s.emit (.frameOut f true true)).countRx (ftype f)

/-- RX_SOF (42_frame_decoder.md R170): needs the lock free. -/
def execRxSof (s : State) : Result :=
  byteStep Config.sof (decide (s.st = .wff) && decide (s.lock = .free)) (fun t => { t with st := .wfl }) s

/-- RX_ACK (R166). -/
def execRxAck (s : State) : Result :=
  byteStep Config.ack (decide (s.st = .wff)) (completeSingle .ack) s

/-- RX_NAK (R167). -/
def execRxNak (s : State) : Result :=
  byteStep Config.nak (decide (s.st = .wff)) (completeSingle .nak) s

/-- RX_CAN (R168). -/
def execRxCan (s : State) : Result :=
  byteStep Config.can (decide (s.st = .wff)) (completeSingle .can) s

/-- RX_NOISE (R169). -/
def execRxNoise (b : Byte) (s : State) : Result :=
  byteStep b (decide (s.st = .wff) && noiseByteOk b) (fun t => t.countRx .oof) s

/-- The registers as RX_LEN sets them for a frame of length byte `b` (R171). -/
def startFrame (b : Byte) (s : State) : State :=
  { s with
    len := b
    cnt := 0x00#8
    acc := accSeed b
    pay := []
    lenOk := lenFlag s.params b
    st := .rf }

/-- What RX_LEN does once its byte is consumed (R171). -/
def takeLength (b : Byte) (s : State) : State :=
  if lenMalformed b then s.resync (.malformedLength b)
  else if lenFlag s.params b then startFrame b s
  else (startFrame b s).report (.lengthOutOfRange b)

/-- RX_LEN (R171). -/
def execRxLen (b : Byte) (s : State) : Result :=
  byteStep b (decide (s.st = .wfl)) (takeLength b) s

/-- RX_KIND (R172). -/
def execRxKind (b : Byte) (s : State) : Result :=
  byteStep b (decide (s.st = .rf) && decide (s.cnt.toNat = 0))
    (fun t => { t with kind := b, acc := accStep t.acc b, cnt := 0x01#8 }) s

/-- RX_CMD (R173). -/
def execRxCmd (b : Byte) (s : State) : Result :=
  byteStep b (decide (s.st = .rf) && decide (s.cnt.toNat = 1))
    (fun t => { t with cmd := b, acc := accStep t.acc b, cnt := 0x02#8 }) s

/-- RX_PAY (R174). -/
def execRxPay (b : Byte) (s : State) : Result :=
  byteStep b (decide (s.st = .rf) && decide (2 ≤ s.cnt.toNat) && decide (s.cnt.toNat + 2 ≤ s.len.toNat))
    (fun t => { t with pay := t.pay.write (t.cnt.toNat - 2) b, acc := accStep t.acc b, cnt := t.cnt + 0x01#8 }) s

/-- `complete_malformed()` (R176). -/
def completeMalformed (s : State) : State := s.resync (.malformedKind s.kind)

/-- `complete_data(b, chk_ok)` for a valid kind (R177): FrameOut first, then the report (60_exceptions.md R243). -/
def completeData (k : Kind) (b : Byte) (s : State) : State :=
  let f : Frame := .data s.len k s.cmd s.payload b
  let t := (s.emit (.frameOut f (chkFlag s.acc b) s.lenOk)).countRx (ftype f)
  if chkFlag s.acc b then { t with resp := .respAck, st := .wff }
  else { t.report (.checksumMismatch b s.acc) with resp := .respNak, st := .wff }

/-- What RX_CHK does once its byte is consumed (R175): a bad kind wins over a bad checksum (60_exceptions.md R243). -/
def completeFrameAt (b : Byte) (s : State) : State :=
  match kindOf s.kind with
  | Option.none => completeMalformed s
  | some k => completeData k b s

/-- RX_CHK (R175). -/
def execRxChk (b : Byte) (s : State) : Result :=
  byteStep b (decide (s.st = .rf) && decide (s.cnt.toNat + 1 = s.len.toNat)) (completeFrameAt b) s

end Sys2Proof.Machine
end

