-- ==== Sys2Proof/Machine/Link.lean ====
section
/-! DEFINITION. The steps on the link: RESP_TX, TX_BEGIN, TX_END, RX_ARRIVE and the statistics read (43_link_io.md R202,
R205, R207, R211, R212). -/

namespace Sys2Proof.Machine

/-- RESP_TX (43_link_io.md R202): the whole send sequence in one step. -/
def execRespTx (k : Nat) (r : WriteResult) (s : State) : Result :=
  match s.resp.frame with
  | Option.none => .next s
  | some f =>
    if s.lock = .free then
      .next { (s.flushInput k).sendResult f (encodeFrame f) r with resp := .none }
    else .next s

/-- TX_BEGIN (R205): stage 1 of the send sequence; takes the lock. -/
def execTxBegin (k : Nat) (s : State) : Result :=
  match s.tx with
  | .queued f w => if s.lock = .free then .next { s.flushInput k with tx := .active f w } else .next s
  | .idle => .next s
  | .active _ _ => .next s

/-- TX_END (R207): stages 2 to 4 of the send sequence; releases the lock. -/
def execTxEnd (r : WriteResult) (s : State) : Result :=
  match s.tx with
  | .active f w => .next { s.sendResult f w r with tx := .idle }
  | .idle => .next s
  | .queued _ _ => .next s

/-- RX_ARRIVE (R211), always enabled. -/
def execRxArrive (bs : List Byte) (s : State) : Result := .next { s with rxq := s.rxq ++ bs }

/-- The value of one of the ten counters (R212). -/
def State.counter (s : State) : Counter → Nat
  | .rx c => s.rxStats.get c
  | .tx c => s.txStats.get c

/-- STATS_READ (R212): no side effect; the value goes to the caller. The operand names the counter, as the row's `counter`
field in spec/opcode_table.json gives it. -/
def execStatsRead (c : Counter) (s : State) : Result := .next (s.returns (.count (s.counter c)))

end Sys2Proof.Machine
end

