-- ==== Sys2Proof/Machine/Dispatch.lean ====
section
/-! DEFINITION. The meaning of every operation: one arm per constructor of `Instr`. -/

namespace Sys2Proof.Machine

def exec (i : Instr) (s : State) : Host.Outcome State Fault Refusal :=
  match i with
  | .rxSof => Sys2Proof.Machine.execRxSof s
  | .rxAck => Sys2Proof.Machine.execRxAck s
  | .rxNak => Sys2Proof.Machine.execRxNak s
  | .rxCan => Sys2Proof.Machine.execRxCan s
  | .rxNoise b => Sys2Proof.Machine.execRxNoise b s
  | .rxLen b => Sys2Proof.Machine.execRxLen b s
  | .rxKind b => Sys2Proof.Machine.execRxKind b s
  | .rxCmd b => Sys2Proof.Machine.execRxCmd b s
  | .rxPay b => Sys2Proof.Machine.execRxPay b s
  | .rxChk b => Sys2Proof.Machine.execRxChk b s
  | .encAck => Sys2Proof.Machine.execEncAck s
  | .encNak => Sys2Proof.Machine.execEncNak s
  | .encCan => Sys2Proof.Machine.execEncCan s
  | .encData kind cmd payload => Sys2Proof.Machine.execEncData kind cmd payload s
  | .xsum length kind cmd payload => Sys2Proof.Machine.execXsum length kind cmd payload s
  | .nop => Sys2Proof.Machine.execNop s
  | .reset m => Sys2Proof.Machine.execReset m s
  | .openPort => Sys2Proof.Machine.execOpenPort s
  | .txSubmit f => Sys2Proof.Machine.execTxSubmit f s
  | .hostopReserved4to7 low => Sys2Proof.Machine.execHostopReserved4to7 low s
  | .hostopReserved8toF low => Sys2Proof.Machine.execHostopReserved8toF low s
  | .bufFromValues vs => Sys2Proof.Machine.execBufFromValues vs s
  | .bufFromBytes bs => Sys2Proof.Machine.execBufFromBytes bs s
  | .bufOfLength n => Sys2Proof.Machine.execBufOfLength n s
  | .bufGet h idx => Sys2Proof.Machine.execBufGet h idx s
  | .bufSet h idx v => Sys2Proof.Machine.execBufSet h idx v s
  | .bufNext h => Sys2Proof.Machine.execBufNext h s
  | .bufNext24 h => Sys2Proof.Machine.execBufNext24 h s
  | .bufHasNext h => Sys2Proof.Machine.execBufHasNext h s
  | .bufopReserved8toF low => Sys2Proof.Machine.execBufopReserved8toF low s
  | .respTx k r => Sys2Proof.Machine.execRespTx k r s
  | .txBegin k => Sys2Proof.Machine.execTxBegin k s
  | .txEnd r => Sys2Proof.Machine.execTxEnd r s
  | .rxArrive bs => Sys2Proof.Machine.execRxArrive bs s
  | .statsRead c => Sys2Proof.Machine.execStatsRead c s

end Sys2Proof.Machine
end

