-- ==== Sys2Proof/Machine/Fetch.lean ====
section
/-! DEFINITION. One turn of the schedule: fetch the move with the byte shown at `rxq`, decode it, run it (log 1, log 14). -/

namespace Sys2Proof.Machine

/-- The move with the byte at the head of `rxq` (42_frame_decoder.md R160). -/
def fetch (s : State) (m : Move) : Fetched := { move := m, rx := s.rxq.head? }

/-- What the decoder reads from a move in this state. -/
def decodeAt (s : State) (m : Move) : Decoded := decode s.phase (fetch s m)

/-- A byte step without a byte, or with a response pending, is no step: the RX agent holds before it reads any
register (42_frame_decoder.md R164, cases 1 and 2). -/
def holdsByte (s : State) (m : Move) : Bool :=
  decide (m = .rxByte) && (s.rxq.isEmpty || decide (s.resp ≠ .none))

/-- Running what the decoder answered. -/
def runDecoded (d : Decoded) (s : State) : Result :=
  match d with
  | .instr i => exec i s
  | .hold => .next s
  | .timeout => .next s.interbyteTimeout
  | .outsideRules => .fault .decoderOutsideRules
  | .rejected e => .refused (.noOperation e)

/-- One turn, on the state whose schedule no longer holds the move: the agent holds, or the decoded operation runs. -/
def takeTurn (m : Move) (s : State) : Result :=
  if holdsByte s m then .next s else runDecoded (decodeAt s m) s

/-- The next turn of the schedule, which uses its entry up; with an empty schedule nobody moves (log 1). -/
def nextTurn (s : State) : Result :=
  match s.sched with
  | [] => .next s
  | m :: rest => takeTurn m { s with sched := rest }

/-- A fetched move as the very next one: first in the schedule, and a wire byte first in `rxq`, read in WFF (log 15). -/
def placeFetched (s : State) (w : Fetched) : State :=
  match w.rx with
  | Option.none => { s with sched := w.move :: s.sched }
  | some b => { s with sched := w.move :: s.sched, rxq := b :: s.rxq, st := .wff }

end Sys2Proof.Machine
end

