-- ==== Sys2Proof/Machine/Step.lean ====
section
/-! DEFINITION. The step of ZFD, and where a table word is placed to be fetched next. -/

namespace Sys2Proof.Machine

/-- One step: the next entry of the schedule is taken (60_exceptions.md R250; log 1). -/
def step (s : State) : Host.Outcome State Fault Refusal := nextTurn s

/-- `s` with the table word `w` as the very next operation (log 15). -/
def State.withFetchWord (s : State) (nbits w : Nat) : State := placeFetched s (tableWord nbits w)

end Sys2Proof.Machine
end

