-- ==== Sys2Proof/Machine/Reference.lean ====
section
/-! DEFINITION. Programs of moves: the notation's pseudo-operations (30_encoding.md R81, R82) and the reference run
`decodeStream` (42_frame_decoder.md R181). -/

namespace Sys2Proof.Machine

/-- `rx b0 b1 ...`: an arrival, then one byte step per byte (30_encoding.md R82). -/
def movesRx (bs : List Byte) : List Move := .arrive bs :: List.replicate bs.length .rxByte

/-- `rxframe F` (30_encoding.md R82). -/
def movesRxFrame (f : Frame) : List Move := movesRx (encodeFrame f)

/-- `send F` from a state with `q` bytes in `rxq`: submit, begin without loss, end without failure (30_encoding.md R82). -/
def movesSend (f : Frame) (q : Nat) : List Move :=
  [.hostCmd 0x3#4 { frame := f }, .beginTx q, .endTx .ok]

/-- The RX agent's one enabled step without loss or failure: RESP_TX when a response is pending, a byte step when a
byte waits and the lock does not hold it, none otherwise (30_encoding.md R82 `drain`, 42_frame_decoder.md R164). -/
def drainMove (s : State) : Option Move :=
  if s.resp ≠ .none then
    if s.lock = .free then some (.respond s.rxq.length .ok) else Option.none
  else
    match s.rxq with
    | [] => Option.none
    | b :: _ =>
      if s.st = .wff ∧ b = Config.sof ∧ s.lock ≠ .free then Option.none else some .rxByte

/-- `drain`, at most `fuel` steps (30_encoding.md R82). -/
def drain : Nat → State → Result
  | 0, s => .next s
  | n + 1, s =>
    match drainMove s with
    | Option.none => .next s
    | some m =>
      match takeTurn m s with
      | .next t => drain n t
      | .fault r => .fault r
      | .refused r => .refused r

/-- `decodeStream(l)`: from the reset state with `rxq = l`, until the RX agent holds (42_frame_decoder.md R181). Each byte
sets at most one response, so two steps a byte are enough. -/
def decodeStream (l : List Byte) : Result :=
  drain (2 * l.length) { State.reset with rxq := l }

end Sys2Proof.Machine
end

