-- ==== Sys2Proof/Safety.lean ====
section
/-! DEFINITION. The words claims use: when an operation is enabled, what a run is and when it is fair, when the RX agent
holds, what a valid frame and a valid output event are, and the invariant of ZFD's reachable states. -/

namespace Sys2Proof.Machine

/-- A byte step can take `b`: it is at the head of `rxq` and no response is pending (42_frame_decoder.md R160). -/
def State.offers (s : State) (b : Byte) : Bool :=
  decide (s.rxq.head? = some b) && decide (s.resp = .none)

/-- The enabling condition of an operation, as its rule gives it (00_scope.md R8). A cursor operation needs the Buffer it
is applied to (log 10). -/
def enabled (i : Instr) (s : State) : Bool :=
  match i with
  | .rxSof => s.offers Config.sof && decide (s.st = .wff) && decide (s.lock = .free)
  | .rxAck => s.offers Config.ack && decide (s.st = .wff)
  | .rxNak => s.offers Config.nak && decide (s.st = .wff)
  | .rxCan => s.offers Config.can && decide (s.st = .wff)
  | .rxNoise b => s.offers b && decide (s.st = .wff) && noiseByteOk b
  | .rxLen b => s.offers b && decide (s.st = .wfl)
  | .rxKind b => s.offers b && decide (s.st = .rf) && decide (s.cnt.toNat = 0)
  | .rxCmd b => s.offers b && decide (s.st = .rf) && decide (s.cnt.toNat = 1)
  | .rxPay b =>
    s.offers b && decide (s.st = .rf) && decide (2 ≤ s.cnt.toNat) && decide (s.cnt.toNat + 2 ≤ s.len.toNat)
  | .rxChk b => s.offers b && decide (s.st = .rf) && decide (s.cnt.toNat + 1 = s.len.toNat)
  | .openPort => decide (s.tx = .idle)
  | .txSubmit _ => decide (s.tx = .idle)
  | .bufGet h _ => decide (h < s.bufs.length)
  | .bufSet h _ _ => decide (h < s.bufs.length)
  | .bufNext h => decide (h < s.bufs.length)
  | .bufNext24 h => decide (h < s.bufs.length)
  | .bufHasNext h => decide (h < s.bufs.length)
  | .respTx _ _ => decide (s.resp ≠ .none) && decide (s.lock = .free)
  | .txBegin _ =>
    match s.tx with
    | .queued _ _ => decide (s.lock = .free)
    | .idle => false
    | .active _ _ => false
  | .txEnd _ =>
    match s.tx with
    | .active _ _ => true
    | .idle => false
    | .queued _ _ => false
  | .encAck | .encNak | .encCan | .encData _ _ _ | .xsum _ _ _ _ => true
  | .nop | .reset _ | .hostopReserved4to7 _ | .hostopReserved8toF _ => true
  | .bufFromValues _ | .bufFromBytes _ | .bufOfLength _ | .bufopReserved8toF _ => true
  | .rxArrive _ | .statsRead _ => true

/-- A run: any sequence of enabled steps of any agents (60_exceptions.md R250). The abort of log 8, which is outside the
spec, is no step of a run. -/
def IsRun (st : Nat → State) (op : Nat → Instr) : Prop :=
  ∀ n, enabled (op n) (st n) = true ∧ exec (op n) (st n) = .next (st (n + 1))

/-- The agent has an enabled step. -/
def canMove (a : Agent) (s : State) : Prop := ∃ i : Instr, i.agent = a ∧ enabled i s = true

/-- Weak fairness of a run, for the RX and the TX agent only: one that stays able to move eventually moves
(60_exceptions.md R250; log 16). -/
def WeaklyFair (st : Nat → State) (op : Nat → Instr) : Prop :=
  ∀ a : Agent, a = .rxAgent ∨ a = .txAgent → ∀ n, (∀ m, n ≤ m → canMove a (st m)) → ∃ m, n ≤ m ∧ (op m).agent = a

/-- A write of a host frame is in flight. -/
def TxSlot.isActive : TxSlot → Bool
  | .active _ _ => true
  | .idle => false
  | .queued _ _ => false

/-- The three cases in which the RX agent takes no byte step (42_frame_decoder.md R164). -/
def State.rxHolds (s : State) : Bool :=
  s.rxq.isEmpty || decide (s.resp ≠ .none) ||
    (decide (s.st = .wff) && decide (s.rxq.head? = some Config.sof) && s.tx.isActive)

/-- `len_ok` of a completed frame: 1 for the single-byte frames (10_state.md R33, R28). -/
def frameLenFlag (ps : Params) : Frame → Bool
  | .ack | .nak | .can => true
  | .data l _ _ _ _ => lenFlag ps l

/-- A frame as the encoder completes it: the source's Data frame invariant, for the encoder's bounds (30_encoding.md
R80, 41_frame_codec.md R137, R138). -/
def validSent (ps : Params) : Frame → Prop
  | .ack | .nak | .can => True
  | .data l k c p x =>
    l.toNat = p.length + 3 ∧ ps.encLenMin ≤ l.toNat ∧ l.toNat ≤ ps.encLenMax ∧ x = xsum l (kindByte k) c p

/-- An output event as the decoder emits it (30_encoding.md R80): the payload has `length - 3` bytes, `chk_ok` says whether
the checksum matches and `len_ok` whether the length is in range. -/
def validEvent (ps : Params) : Event → Prop
  | .report _ => True
  | .frameOut (.data l k c p x) chkOk lenOk =>
    p.length + 3 = l.toNat ∧ chkOk = decide (x = xsum l (kindByte k) c p) ∧ lenOk = lenFlag ps l
  | .frameOut .ack chkOk lenOk => chkOk = true ∧ lenOk = true
  | .frameOut .nak chkOk lenOk => chkOk = true ∧ lenOk = true
  | .frameOut .can chkOk lenOk => chkOk = true ∧ lenOk = true

/-- The event reports a condition. -/
def Event.isReport : Event → Bool
  | .report _ => true
  | .frameOut _ _ _ => false

/-- What `acc` holds while `cnt` bytes of the frame have been taken in RF (41_frame_codec.md R131). -/
def State.accSoFar (s : State) : Byte :=
  0xFF#8 ^^^ s.len ^^^ (if 1 ≤ s.cnt.toNat then s.kind else 0x00#8) ^^^
    (if 2 ≤ s.cnt.toNat then s.cmd else 0x00#8) ^^^ xorfold (s.pay.bytes (s.cnt.toNat - 2))

/-- The invariant of ZFD. -/
structure Inv (s : State) : Prop where
  /-- in RF, `len >= 3` and `cnt < len` (42_frame_decoder.md R161, I1) -/
  inRules : s.st = .rf → 3 ≤ s.len.toNat ∧ s.cnt.toNat < s.len.toNat
  /-- in RF, `acc` is the checksum of the bytes taken so far (41_frame_codec.md R131) -/
  accRunning : s.st = .rf → s.acc = s.accSoFar
  /-- in RF, `len_ok` says whether `len` is in range (10_state.md R28) -/
  lenOkSet : s.st = .rf → s.lenOk = lenFlag s.params s.len
  /-- in RF, the part of the payload buffer not yet written is clear (42_frame_decoder.md R171) -/
  payClear : s.st = .rf → ∀ a, s.cnt.toNat - 2 ≤ a → s.pay.read a = 0x00#8
  /-- the payload buffer is in canonical form (log 5) -/
  payWf : s.pay.wf = true
  /-- the payload buffer has the indices 0..251 (10_state.md R26) -/
  payBound : ∀ c ∈ s.pay, c.1 < Config.payCap
  /-- a response is pending only in WFF (43_link_io.md R202) -/
  respInWff : s.resp ≠ .none → s.st = .wff
  /-- the lock never has two holders (10_state.md R31, 43_link_io.md R209) -/
  lockExclusive : s.st ≠ .wff → s.tx.isActive = false
  /-- the transmit slot holds a valid frame with its own encoding (10_state.md R30, 30_encoding.md R80) -/
  txQueued : ∀ f w, s.tx = .queued f w → w = encodeFrame f ∧ validSent s.params f
  /-- the same while the write is in flight -/
  txActive : ∀ f w, s.tx = .active f w → w = encodeFrame f ∧ validSent s.params f
  /-- `tx.oof` is never incremented (10_state.md R32) -/
  txOof : s.txStats.oof = 0
  /-- a Buffer's cursor stays in `0 .. N` (40_payload_buffer.md R100) -/
  bufCursor : ∀ b ∈ s.bufs, b.pos ≤ b.data.length
  /-- every event tells the truth about its frame (30_encoding.md R80) -/
  evValid : ∀ e ∈ s.ev, validEvent s.params e

end Sys2Proof.Machine
end

