-- ==== Sys2Proof/Certificates/Slice0/Obligations.lean ====
section
/-! DEFINITION. The statements about ZFD, from the numbered rules of spec/. A statement about one operation gives the
whole next state as an update of the old one, so it is the operation's frame as well. -/

open Sys2Proof Sys2Proof.Machine

/-! Encoding. -/

/-- Decoding the encoding of a well-formed operation, in a phase that selects it, gives it back with all its operands. -/
def Obligations.DecodeEncodeAgree : Prop :=
  ∀ (i : Instr) (p : Phase), i.wf = true → i.selectedIn p = true → decode p (encode i) = .instr i

/-- What the decoder answers is well-formed and selected in the phase, and a byte step is encoded by the word it was read
from. At the other ports a word may hold bus fields that its code ignores (log 14): there the statement says that the
answer's own encoding decodes to the answer. -/
def Obligations.DecodedIsWellFormedAndSelected : Prop :=
  ∀ (p : Phase) (w : Fetched) (i : Instr), decode p w = .instr i →
    i.wf = true ∧ i.selectedIn p = true ∧ (i.isByteStep = true → encode i = w) ∧ decode p (encode i) = .instr i

/-- R76: in WFF each received byte selects exactly one operation. -/
def Obligations.WffByteSelectsOperation : Prop :=
  ∀ (len cnt b : Byte),
    decode { st := .wff, len := len, cnt := cnt } { move := .rxByte, rx := some b } =
      .instr (if b = 0x01#8 then .rxSof else if b = 0x06#8 then .rxAck else if b = 0x15#8 then .rxNak
        else if b = 0x18#8 then .rxCan else .rxNoise b)

/-- R161: operation selection in WFL and RF; in RF the four cases are disjoint and cover every `cnt` below `len`; other
registers are outside the rules (I1). -/
def Obligations.LaterByteSelectsOperation : Prop :=
  (∀ (len cnt b : Byte),
    decode { st := .wfl, len := len, cnt := cnt } { move := .rxByte, rx := some b } = .instr (.rxLen b)) ∧
  (∀ (len cnt b : Byte), 3 ≤ len.toNat → cnt.toNat < len.toNat →
    (cnt.toNat = len.toNat - 1 →
      decode { st := .rf, len := len, cnt := cnt } { move := .rxByte, rx := some b } = .instr (.rxChk b)) ∧
    (cnt.toNat = 0 →
      decode { st := .rf, len := len, cnt := cnt } { move := .rxByte, rx := some b } = .instr (.rxKind b)) ∧
    (cnt.toNat = 1 →
      decode { st := .rf, len := len, cnt := cnt } { move := .rxByte, rx := some b } = .instr (.rxCmd b)) ∧
    (2 ≤ cnt.toNat → cnt.toNat ≤ len.toNat - 2 →
      decode { st := .rf, len := len, cnt := cnt } { move := .rxByte, rx := some b } = .instr (.rxPay b))) ∧
  (∀ (len cnt b : Byte), len.toNat < 3 ∨ len.toNat ≤ cnt.toNat →
    decode { st := .rf, len := len, cnt := cnt } { move := .rxByte, rx := some b } = .outsideRules)

/-- Words written out from the spec's encodings (R71, R76, R83) decode to the operations they stand for. -/
def Obligations.SampleWordsDecode : Prop :=
  decode tablePhase { move := .rxByte, rx := some 0b00000001#8 } = .instr .rxSof ∧
  decode tablePhase { move := .rxByte, rx := some 0b00011000#8 } = .instr .rxCan ∧
  decode { st := .rf, len := 0x08#8, cnt := 0x07#8 } { move := .rxByte, rx := some 0b10100000#8 } =
    .instr (.rxChk 0xA0#8) ∧
  decode tablePhase { move := .encoder 0b00010101#8 {}, rx := none } = .instr .encNak ∧
  decode tablePhase { move := .hostCmd 0b0001#4 { draw := 2 }, rx := none } = .instr (.reset 2) ∧
  decode tablePhase { move := .hostCmd 0b0110#4 {}, rx := none } = .instr (.hostopReserved4to7 0b10#2) ∧
  decode tablePhase { move := .cursor 0b0110#4 { buf := 1 }, rx := none } = .instr (.bufNext24 1)

/-! The step. -/

/-- When the next move decodes to an operation, the step is that operation's meaning on the state whose schedule no
longer holds the move. -/
def Obligations.StepRunsDecodedOperation : Prop :=
  ∀ (s : State) (m : Move) (rest : List Move) (i : Instr), s.sched = m :: rest →
    decodeAt { s with sched := rest } m = .instr i → step s = exec i { s with sched := rest }

/-- The model's choice (log 1, log 8, log 14): an empty schedule leaves everything, a byte step without a byte holds, a
move that names no operation is refused by name, and the timeout, which is outside this spec, does nothing but abort a
frame under assembly with no byte waiting where RX_INTERBYTE_TIMEOUT is present. -/
def Obligations.StepWithoutOperation : Prop :=
  (∀ s : State, s.sched = [] → step s = .next s) ∧
  (∀ (s : State) (rest : List Move), s.sched = .rxByte :: rest → s.rxq = [] → step s = .next { s with sched := rest }) ∧
  (∀ (s : State) (rest : List Move), s.sched = .arrive [] :: rest → step s = .refused (.noOperation .emptyArrival)) ∧
  (∀ (s : State) (rest : List Move) (k m : Nat), s.sched = .respond k (.fail m) :: rest → 1 < m →
    step s = .refused (.noOperation (.responseResult m))) ∧
  (∀ (s : State) (rest : List Move) (b : Byte) (bus : FrameBus), s.sched = .encoder b bus :: rest →
    b ∉ [0x01#8, 0x06#8, 0x15#8, 0x18#8] → step s = .refused (.noOperation (.noFrameType b))) ∧
  (∀ (s : State) (rest : List Move), s.sched = .rxTimeout :: rest →
    (s.params.rxInterbyteTimeout = none ∨ s.st = .wff ∨ s.rxq ≠ [] → step s = .next { s with sched := rest }) ∧
    (s.params.rxInterbyteTimeout ≠ none → s.st ≠ .wff → s.rxq = [] →
      ∃ t : State, step s = .next t ∧ (t.resp = .respNak ∨ t.resp = s.resp) ∧
        t = { s with sched := rest, st := .wff, resp := t.resp, draws := t.draws }))

/-! The invariant. -/

/-- Every step keeps the invariant. -/
def Obligations.StepKeepsInvariant : Prop :=
  ∀ s t : State, Inv s → step s = .next t → Inv t

/-- The invariant holds after reset. -/
def Obligations.ResetMeetsInvariant : Prop := Inv State.reset

/-- R161, R241: no step faults where the invariant holds, so `cnt >= len` in RF never stops a run. -/
def Obligations.InvariantStepNeverFaults : Prop :=
  ∀ (s : State) (r : Fault), Inv s → step s ≠ .fault r

/-- R131: once the last payload byte is taken, `acc = XSUM(length, kind, commandId, p)`. -/
def Obligations.RunningChecksumIsXsum : Prop :=
  ∀ s : State, Inv s → s.st = .rf → s.cnt.toNat + 1 = s.len.toNat →
    s.acc = 0xFF#8 ^^^ s.len ^^^ s.kind ^^^ s.cmd ^^^ xorfold ((List.range (s.len.toNat - 3)).map s.pay.read)

/-- R141: the round-trip law, over a run of the machine that takes one byte step per byte. Where the encoder's bounds
lie within the decoder's, exactly one event comes out. An admitted length outside LEN_MIN..LEN_MAX also has the
report of R171 before the frame (log 20). -/
def Obligations.RoundTripLaw : Prop :=
  ∀ (s : State) (f : Frame) (rest : List Move),
    frameAdmitted s.params f = true → s.st = .wff → s.resp = .none → s.lock ≠ .heldTx → s.rxq = encodeFrame f →
    s.sched = List.replicate (encodeFrame f).length .rxByte ++ rest →
    ∃ t : State, Host.Core.run Sys2Proof.core (encodeFrame f).length s = .next t ∧
      (s.params.lenMin ≤ s.params.encLenMin → s.params.encLenMax ≤ s.params.lenMax →
        frameLenFlag s.params (completeFrame f) = true) ∧
      (frameLenFlag s.params (completeFrame f) = true → t.ev = s.ev ++ [.frameOut (completeFrame f) true true]) ∧
      (frameLenFlag s.params (completeFrame f) = false → ∃ l k c p x, completeFrame f = .data l k c p x ∧
        t.ev = s.ev ++ [.report (.lengthOutOfRange l), .frameOut (completeFrame f) true false]) ∧
      t.st = .wff ∧ t.rxq = [] ∧ t.sched = rest ∧ t.txw = s.txw ∧
      (∀ l k c p x, f = .data l k c p x → t.resp = .respAck) ∧
      (f = .ack ∨ f = .nak ∨ f = .can → t.resp = .none)

/-! The checksum. -/

/-- R132: the check passes exactly when the XOR of every byte from the length byte to the checksum byte is 0xFF. -/
def Obligations.ChecksumSecondForm : Prop :=
  ∀ (len kind cmd b : Byte) (p : List Byte),
    (b = xsum len kind cmd p) ↔ xorfold (len :: kind :: cmd :: (p ++ [b])) = 0xFF#8

/-- R130: the result does not depend on the order of the payload bytes, two equal bytes cancel, and an empty payload
contributes 0x00. -/
def Obligations.ChecksumOrderIndependent : Prop :=
  (∀ (len kind cmd : Byte) (p q : List Byte), p.Perm q → xsum len kind cmd p = xsum len kind cmd q) ∧
  (∀ (len kind cmd b : Byte) (p q : List Byte), xsum len kind cmd (p ++ b :: b :: q) = xsum len kind cmd (p ++ q)) ∧
  (∀ len kind cmd : Byte, xsum len kind cmd [] = 0xFF#8 ^^^ len ^^^ kind ^^^ cmd)

/-! The whole machine. -/

/-- R33, R35: the output trace and the written bytes only grow. -/
def Obligations.TracesOnlyGrow : Prop :=
  ∀ s t : State, step s = .next t → s.ev <+: t.ev ∧ s.txw <+: t.txw

/-- R243: a step raises at most one report, and a frame comes before it. -/
def Obligations.AtMostOneReportPerStep : Prop :=
  ∀ s t : State, step s = .next t →
    ∃ l : List Event, t.ev = s.ev ++ l ∧
      (l = [] ∨ (∃ e, l = [e]) ∨ ∃ f c o r, l = [.frameOut f c o, .report r])

/-- R208: a step appends nothing to the wire, or the bytes of the one frame it sends, whole or a part from its start: the
frame of the write in flight or of the pending response, and a valid one. So frames never interleave. -/
def Obligations.WireGrowsByOneFrame : Prop :=
  ∀ s t : State, Inv s → step s = .next t →
    t.txw = s.txw ∨
    ∃ (f : Frame) (m : Nat), ((∃ w, s.tx = .active f w) ∨ s.resp.frame = some f) ∧ validSent s.params f ∧
      m ≤ (encodeFrame f).length ∧ t.txw = s.txw ++ (encodeFrame f).take m

/-- R57: while a Data frame is under assembly no byte is appended to the wire. -/
def Obligations.NoWriteDuringAssembly : Prop :=
  ∀ s t : State, Inv s → s.st ≠ .wff → step s = .next t → t.txw = s.txw

/-- R31: the lock as a function of `st` and `tx`. -/
def Obligations.LockFollowsDecoderAndSlot : Prop :=
  ∀ s : State,
    ((s.st = .wfl ∨ s.st = .rf) → s.lock = .heldRx) ∧
    (s.st = .wff → ∀ f w, s.tx = .active f w → s.lock = .heldTx) ∧
    (s.st = .wff → (∀ f w, s.tx ≠ .active f w) → s.lock = .free)

/-- R179: a step that detects a malformed length or kind, or completes a frame, leaves the decoder in WFF. -/
def Obligations.ErrorsAndFramesEndInWff : Prop :=
  ∀ (s t : State) (l : List Event), step s = .next t → t.ev = s.ev ++ l →
    ((∃ f c o, Event.frameOut f c o ∈ l) ∨ (∃ b, Event.report (.malformedLength b) ∈ l) ∨
      (∃ k, Event.report (.malformedKind k) ∈ l)) →
    t.st = .wff

/-- R200: a byte step sets RespAck exactly when it completes a Data frame whose checksum matches, and RespNak exactly
when it reports a malformed length, a malformed kind or a checksum mismatch. -/
def Obligations.ResponseMatchesOutcome : Prop :=
  ∀ (i : Instr) (s t : State), i.isByteStep = true → s.resp = .none → exec i s = .next t →
    ∃ l : List Event, t.ev = s.ev ++ l ∧
      (t.resp = .respAck ↔ ∃ n k c p x o, Event.frameOut (.data n k c p x) true o ∈ l) ∧
      (t.resp = .respNak ↔
        ∃ r, Event.report r ∈ l ∧ (r.code = 0x01#8 ∨ r.code = 0x02#8 ∨ r.code = 0x03#8))

/-- R56, R37: which operations write which item; the parameters are never written. RESET's wire bytes (R270) and the
reserved host codes' report (R83) are counted in, and OPEN leaves the registers R272 does not write, though R56 names it
there (log 17). The model's choices: no operation changes the schedule (log 1), RESET keeps the Buffers (log 10). -/
def Obligations.ItemsHaveTheirWriters : Prop :=
  ∀ (i : Instr) (s t : State), exec i s = .next t →
    t.params = s.params ∧ t.sched = s.sched ∧
    (i.isByteStep = true ∨ (∃ m, i = .reset m) ∨ i = .openPort ∨ t.st = s.st) ∧
    (i.isByteStep = true ∨ (∃ m, i = .reset m) ∨
      (t.len = s.len ∧ t.cnt = s.cnt ∧ t.kind = s.kind ∧ t.cmd = s.cmd ∧ t.pay = s.pay ∧ t.acc = s.acc ∧
        t.lenOk = s.lenOk)) ∧
    (i.agent = .rxAgent ∨ (∃ m, i = .reset m) ∨ i = .openPort ∨ t.resp = s.resp) ∧
    ((∃ f, i = .txSubmit f) ∨ i = .openPort ∨ (∃ m, i = .reset m) ∨ i.agent = .txAgent ∨ t.tx = s.tx) ∧
    (i.isByteStep = true ∨ (∃ m, i = .reset m) ∨ t.rxStats = s.rxStats) ∧
    ((∃ r, i = .txEnd r) ∨ (∃ k r, i = .respTx k r) ∨ (∃ m, i = .reset m) ∨ t.txStats = s.txStats) ∧
    (i.agent = .rxAgent ∨ (∃ f, i = .txSubmit f) ∨ (∃ r, i = .txEnd r) ∨ (∃ b, i = .hostopReserved4to7 b) ∨
      (∃ b, i = .hostopReserved8toF b) ∨ t.ev = s.ev) ∧
    ((∃ bs, i = .rxArrive bs) ∨ i.agent = .rxAgent ∨ i.agent = .txAgent ∨ t.rxq = s.rxq) ∧
    ((∃ r, i = .txEnd r) ∨ (∃ k r, i = .respTx k r) ∨ (∃ m, i = .reset m) ∨ t.txw = s.txw) ∧
    (i.isCursorOp = true ∨ t.bufs = s.bufs)

/-- R110: a cursor operation changes no decoder state, link state or counter and emits no event, and where it ends in a
fault the Buffers are unchanged too. -/
def Obligations.CursorOpsTouchOnlyBuffers : Prop :=
  ∀ (i : Instr) (s : State), i.isCursorOp = true →
    ∃ t : State, exec i s = .next t ∧ t = { s with bufs := t.bufs, ret := t.ret } ∧
      (∀ e, t.ret = .bufFault e → t.bufs = s.bufs)

/-- The model's choice (log 2) for R8: an operation that is not enabled changes nothing. -/
def Obligations.NotEnabledHolds : Prop :=
  ∀ (i : Instr) (s : State), enabled i s = false → exec i s = .next s

/-- R241: no operation is refused, and the only fault is a byte step on registers outside the rules. -/
def Obligations.ExecCompletesInsideRules : Prop :=
  (∀ (i : Instr) (s : State), (s.st = .rf → 3 ≤ s.len.toNat ∧ s.cnt.toNat < s.len.toNat) →
    ∃ t : State, exec i s = .next t) ∧
  (∀ (i : Instr) (s : State) (r : Refusal), exec i s ≠ .refused r) ∧
  (∀ (i : Instr) (s : State) (r : Fault), exec i s = .fault r →
    i.isByteStep = true ∧ s.st = .rf ∧ (s.len.toNat < 3 ∨ s.len.toNat ≤ s.cnt.toNat))

/-- R164, R160: the RX agent holds in exactly three cases; otherwise its byte step takes exactly one byte. -/
def Obligations.RxAgentHoldsInThreeCases : Prop :=
  ∀ (s : State) (rest : List Move), Inv s → s.sched = .rxByte :: rest →
    ((s.rxq = [] ∨ s.resp ≠ .none ∨ (s.st = .wff ∧ s.rxq.head? = some 0x01#8 ∧ ∃ f w, s.tx = .active f w)) →
      step s = .next { s with sched := rest }) ∧
    (¬(s.rxq = [] ∨ s.resp ≠ .none ∨ (s.st = .wff ∧ s.rxq.head? = some 0x01#8 ∧ ∃ f w, s.tx = .active f w)) →
      ∃ (b : Byte) (q : List Byte) (t : State), s.rxq = b :: q ∧ step s = .next t ∧ t.rxq = q)

/-- R276: with no byte waiting in WFL or RF, only an arrival, RESET or OPEN changes the decoder or lets a byte out, and the
timeout of log 8 where RX_INTERBYTE_TIMEOUT is present. -/
def Obligations.TruncatedFrameWaits : Prop :=
  ∀ (s t : State) (m : Move) (rest : List Move), Inv s → s.st ≠ .wff → s.rxq = [] → s.sched = m :: rest →
    (∀ bs, m ≠ .arrive bs) → (∀ bus, m ≠ .hostCmd 0x1#4 bus) → (∀ bus, m ≠ .hostCmd 0x2#4 bus) →
    (m = .rxTimeout → s.params.rxInterbyteTimeout = none) →
    step s = .next t → t.st = s.st ∧ t.rxq = [] ∧ t.txw = s.txw ∧ t.lock = .heldRx

/-- R32: but for RESET, a step adds at most 1 to each counter and never takes away; `tx.oof` never moves. -/
def Obligations.CountersOnlyGrow : Prop :=
  ∀ (i : Instr) (s t : State), (∀ m, i ≠ .reset m) → exec i s = .next t →
    (∀ c : Stat, s.rxStats.get c ≤ t.rxStats.get c ∧ t.rxStats.get c ≤ s.rxStats.get c + 1) ∧
    (∀ c : Stat, s.txStats.get c ≤ t.txStats.get c ∧ t.txStats.get c ≤ s.txStats.get c + 1) ∧
    t.txStats.oof = s.txStats.oof

/-! The byte steps. -/

/-- R170: RX_SOF takes the byte 0x01 and the lock. -/
def Obligations.RxSofTakesLock : Prop :=
  ∀ (s : State) (q : List Byte), s.rxq = 0x01#8 :: q → s.resp = .none → s.st = .wff → (∀ f w, s.tx ≠ .active f w) →
    exec .rxSof s = .next { s with rxq := q, st := .wfl } ∧ ({ s with rxq := q, st := .wfl } : State).lock = .heldRx

/-- R166, R167, R168: a single-byte frame is emitted and counted, also during a transmission; `tx` and `resp` stay. -/
def Obligations.RxSingleByteFrames : Prop :=
  ∀ (s : State) (q : List Byte), s.resp = .none → s.st = .wff →
    (s.rxq = 0x06#8 :: q → exec .rxAck s =
      .next { s with rxq := q, ev := s.ev ++ [.frameOut .ack true true],
                     rxStats := { s.rxStats with ack := s.rxStats.ack + 1 } }) ∧
    (s.rxq = 0x15#8 :: q → exec .rxNak s =
      .next { s with rxq := q, ev := s.ev ++ [.frameOut .nak true true],
                     rxStats := { s.rxStats with nak := s.rxStats.nak + 1 } }) ∧
    (s.rxq = 0x18#8 :: q → exec .rxCan s =
      .next { s with rxq := q, ev := s.ev ++ [.frameOut .can true true],
                     rxStats := { s.rxStats with can := s.rxStats.can + 1 } })

/-- R169: a noise byte is counted and discarded. -/
def Obligations.RxNoiseCounted : Prop :=
  ∀ (s : State) (b : Byte) (q : List Byte), b ∉ [0x01#8, 0x06#8, 0x15#8, 0x18#8] → s.rxq = b :: q → s.resp = .none →
    s.st = .wff →
    exec (.rxNoise b) s = .next { s with rxq := q, rxStats := { s.rxStats with oof := s.rxStats.oof + 1 } }

/-- R171: a length below 3 resynchronises; any other starts the assembly, and is reported when it is out of range. -/
def Obligations.RxLenStartsAssembly : Prop :=
  ∀ (s : State) (b : Byte) (q : List Byte), s.rxq = b :: q → s.resp = .none → s.st = .wfl →
    (b.toNat < 3 → exec (.rxLen b) s =
      .next { s with rxq := q, ev := s.ev ++ [.report (.malformedLength b)], st := .wff, resp := .respNak }) ∧
    (3 ≤ b.toNat → ∃ t : State, exec (.rxLen b) s = .next t ∧ (∀ a, t.pay.read a = 0x00#8) ∧
      t = { s with rxq := q, len := b, cnt := 0x00#8, acc := 0xFF#8 ^^^ b, pay := t.pay,
                   lenOk := decide (s.params.lenMin ≤ b.toNat ∧ b.toNat ≤ s.params.lenMax), st := .rf,
                   ev := if s.params.lenMin ≤ b.toNat ∧ b.toNat ≤ s.params.lenMax then s.ev
                     else s.ev ++ [.report (.lengthOutOfRange b)] })

/-- R172: RX_KIND latches the raw kind byte. -/
def Obligations.RxKindLatches : Prop :=
  ∀ (s : State) (b : Byte) (q : List Byte), s.rxq = b :: q → s.resp = .none → s.st = .rf → 3 ≤ s.len.toNat →
    s.cnt = 0x00#8 → exec (.rxKind b) s = .next { s with rxq := q, kind := b, acc := s.acc ^^^ b, cnt := 0x01#8 }

/-- R173: RX_CMD latches the command id. -/
def Obligations.RxCmdLatches : Prop :=
  ∀ (s : State) (b : Byte) (q : List Byte), s.rxq = b :: q → s.resp = .none → s.st = .rf → 3 ≤ s.len.toNat →
    s.cnt = 0x01#8 → exec (.rxCmd b) s = .next { s with rxq := q, cmd := b, acc := s.acc ^^^ b, cnt := 0x02#8 }

/-- R174: RX_PAY writes byte `cnt - 2` of the payload buffer, below PAY_CAP, and no other. -/
def Obligations.RxPayStoresByte : Prop :=
  ∀ (s : State) (b : Byte) (q : List Byte), s.rxq = b :: q → s.resp = .none → s.st = .rf →
    2 ≤ s.cnt.toNat → s.cnt.toNat ≤ s.len.toNat - 2 → s.pay.wf = true →
    s.cnt.toNat - 2 < 252 ∧
    ∃ t : State, exec (.rxPay b) s = .next t ∧ t.pay.wf = true ∧
      (∀ a, t.pay.read a = if a = s.cnt.toNat - 2 then b else s.pay.read a) ∧
      t.cnt.toNat = s.cnt.toNat + 1 ∧
      t = { s with rxq := q, pay := t.pay, acc := s.acc ^^^ b, cnt := t.cnt }

/-- R176: a bad kind byte resynchronises with one NAK, whatever the checksum byte is. -/
def Obligations.RxChkMalformedKind : Prop :=
  ∀ (s : State) (b : Byte) (q : List Byte), s.rxq = b :: q → s.resp = .none → s.st = .rf → 3 ≤ s.len.toNat →
    s.cnt.toNat = s.len.toNat - 1 → s.kind ∉ [0x00#8, 0x01#8] →
    exec (.rxChk b) s =
      .next { s with rxq := q, ev := s.ev ++ [.report (.malformedKind s.kind)], st := .wff, resp := .respNak }

/-- R177: a frame of valid kind is emitted and counted once; a matching checksum sets RespAck, another is reported and
sets RespNak. -/
def Obligations.RxChkCompletesData : Prop :=
  ∀ (s : State) (b : Byte) (q : List Byte) (k : Kind), s.rxq = b :: q → s.resp = .none → s.st = .rf →
    3 ≤ s.len.toNat → s.cnt.toNat = s.len.toNat - 1 →
    (s.kind = 0x00#8 ∧ k = .request ∨ s.kind = 0x01#8 ∧ k = .response) →
    (b = s.acc → exec (.rxChk b) s =
      .next { s with
        rxq := q
        ev := s.ev ++ [.frameOut (.data s.len k s.cmd ((List.range (s.len.toNat - 3)).map s.pay.read) b) true s.lenOk]
        rxStats := { s.rxStats with data := s.rxStats.data + 1 }
        resp := .respAck
        st := .wff }) ∧
    (b ≠ s.acc → exec (.rxChk b) s =
      .next { s with
        rxq := q
        ev := s.ev ++ [.frameOut (.data s.len k s.cmd ((List.range (s.len.toNat - 3)).map s.pay.read) b) false s.lenOk,
          .report (.checksumMismatch b s.acc)]
        rxStats := { s.rxStats with data := s.rxStats.data + 1 }
        resp := .respNak
        st := .wff })

/-! The pure functions. What is returned goes to `ret`, the model's own field (log 11). -/

/-- R134, R135, R136: the encodings of the single-byte frames. -/
def Obligations.EncSingleByteFrames : Prop :=
  ∀ s : State,
    exec .encAck s = .next { s with ret := .bytes [0x06#8] } ∧
    exec .encNak s = .next { s with ret := .bytes [0x15#8] } ∧
    exec .encCan s = .next { s with ret := .bytes [0x18#8] }

/-- R137, R138: an admitted Data frame is encoded with its computed length and checksum; another is not encoded (what is
returned then is the model's choice, log 12). -/
def Obligations.EncDataBytes : Prop :=
  ∀ (s : State) (k : Kind) (c : Byte) (p : List Byte),
    (s.params.encLenMin ≤ p.length + 3 ∧ p.length + 3 ≤ s.params.encLenMax ∧ p.length + 3 ≤ 255 →
      ∃ (l kb : Byte), l.toNat = p.length + 3 ∧ kb = (match k with | .request => 0x00#8 | .response => 0x01#8) ∧
        exec (.encData k c p) s =
          .next { s with ret := .bytes ([0x01#8, l, kb, c] ++ p ++ [0xFF#8 ^^^ l ^^^ kb ^^^ c ^^^ xorfold p]) }) ∧
    (¬(s.params.encLenMin ≤ p.length + 3 ∧ p.length + 3 ≤ s.params.encLenMax ∧ p.length + 3 ≤ 255) →
      exec (.encData k c p) s = .next { s with ret := .notEncoded (p.length + 3) })

/-- R130: XSUM is total on every input. -/
def Obligations.XsumReturnsChecksum : Prop :=
  ∀ (s : State) (len kind cmd : Byte) (p : List Byte),
    exec (.xsum len kind cmd p) s = .next { s with ret := .byte (0xFF#8 ^^^ len ^^^ kind ^^^ cmd ^^^ xorfold p) }

/-! The host command port. -/

/-- R83: hostop4 0x0 is no operation. -/
def Obligations.NopChangesNothing : Prop := ∀ s : State, exec .nop s = .next s

/-- R270: RESET in every state; nothing is said of the registers the rule leaves unspecified. That the Buffers survive it
is the model's choice (log 10). -/
def Obligations.ResetRestoresBlock : Prop :=
  ∀ (s : State) (m : Nat), ∃ t : State, exec (.reset m) s = .next t ∧
    t = { s with
      st := .wff
      resp := .none
      tx := .idle
      rxStats := { ack := 0, nak := 0, can := 0, data := 0, oof := 0 }
      txStats := { ack := 0, nak := 0, can := 0, data := 0, oof := 0 }
      len := t.len
      cnt := t.cnt
      kind := t.kind
      cmd := t.cmd
      pay := t.pay
      acc := t.acc
      lenOk := t.lenOk
      txw := t.txw
      draws := t.draws } ∧
    t.lock = .free ∧
    (∀ f w, s.tx = .active f w → m ≤ w.length → t.txw = s.txw ++ w.take m) ∧
    ((∀ f w, s.tx ≠ .active f w) → t.txw = s.txw)

/-- R272: OPEN while `tx` is Idle returns the decoder to WFF and queues a NAK; statistics unchanged. -/
def Obligations.OpenQueuesNak : Prop :=
  ∀ s : State, s.tx = .idle →
    exec .openPort s = .next { s with st := .wff, resp := .none, tx := .queued .nak [0x15#8] }

/-- R204: TX_SUBMIT while `tx` is Idle queues the frame with computed length and checksum, whatever length and checksum
the host supplied, or reports the length that is not admitted. -/
def Obligations.TxSubmitQueuesFrame : Prop :=
  ∀ s : State, s.tx = .idle →
    exec (.txSubmit .ack) s = .next { s with tx := .queued .ack [0x06#8] } ∧
    exec (.txSubmit .nak) s = .next { s with tx := .queued .nak [0x15#8] } ∧
    exec (.txSubmit .can) s = .next { s with tx := .queued .can [0x18#8] } ∧
    ∀ (l : Byte) (k : Kind) (c : Byte) (p : List Byte) (x : Byte),
      (s.params.encLenMin ≤ p.length + 3 ∧ p.length + 3 ≤ s.params.encLenMax ∧ p.length + 3 ≤ 255 →
        ∃ (l' kb cs : Byte), l'.toNat = p.length + 3 ∧ kb = (match k with | .request => 0x00#8 | .response => 0x01#8) ∧
          cs = 0xFF#8 ^^^ l' ^^^ kb ^^^ c ^^^ xorfold p ∧
          exec (.txSubmit (.data l k c p x)) s =
            .next { s with tx := .queued (.data l' k c p cs) ([0x01#8, l', kb, c] ++ p ++ [cs]) }) ∧
      (¬(s.params.encLenMin ≤ p.length + 3 ∧ p.length + 3 ≤ s.params.encLenMax ∧ p.length + 3 ≤ 255) →
        exec (.txSubmit (.data l k c p x)) s =
          .next { s with ev := s.ev ++ [.report (.encodeLengthError (p.length + 3))] })

/-- R83, R240: a reserved hostop4 code 0x4..0xF is reported with its code and otherwise ignored. -/
def Obligations.ReservedHostCodesReported : Prop :=
  (∀ (s : State) (low : BitVec 2), ∃ code : BitVec 4, code.toNat = 4 + low.toNat ∧
    exec (.hostopReserved4to7 low) s = .next { s with ev := s.ev ++ [.report (.illegalHostOp code)] }) ∧
  (∀ (s : State) (low : BitVec 3), ∃ code : BitVec 4, code.toNat = 8 + low.toNat ∧
    exec (.hostopReserved8toF low) s = .next { s with ev := s.ev ++ [.report (.illegalHostOp code)] })

/-! The payload cursor. Where a Buffer stands is the model's choice (log 10). -/

/-- R101: values that all fit in a byte give a Buffer at cursor 0; else the first that does not fit is named. -/
def Obligations.BufFromValuesBuilds : Prop :=
  ∀ (s : State) (vs : List Int),
    ((∀ v ∈ vs, 0 ≤ v ∧ v ≤ 255) → ∃ d : List Byte, d.map (fun b => (b.toNat : Int)) = vs ∧
      exec (.bufFromValues vs) s =
        .next { s with bufs := s.bufs ++ [{ data := d, pos := 0 }], ret := .buffer s.bufs.length }) ∧
    (∀ (j : Nat) (v : Int), vs[j]? = some v → (v < 0 ∨ 255 < v) →
      (∀ (i : Nat) (u : Int), i < j → vs[i]? = some u → 0 ≤ u ∧ u ≤ 255) →
      exec (.bufFromValues vs) s = .next { s with ret := .bufFault (.value j) })

/-- R102, R103: a Buffer over given bytes, and a zero-filled one. -/
def Obligations.BufConstructorsBuild : Prop :=
  (∀ (s : State) (bs : List Byte), exec (.bufFromBytes bs) s =
    .next { s with bufs := s.bufs ++ [{ data := bs, pos := 0 }], ret := .buffer s.bufs.length }) ∧
  (∀ (s : State) (n : Nat), exec (.bufOfLength n) s =
    .next { s with bufs := s.bufs ++ [{ data := List.replicate n 0x00#8, pos := 0 }], ret := .buffer s.bufs.length })

/-- R104: BUF_GET returns the byte at a legal index and faults at any other; the Buffer is unchanged. -/
def Obligations.BufGetReads : Prop :=
  ∀ (s : State) (h i : Nat) (b : Buffer), s.bufs[h]? = some b →
    (i < b.data.length → ∃ v : Byte, b.data[i]? = some v ∧ exec (.bufGet h i) s = .next { s with ret := .byte v }) ∧
    (b.data.length ≤ i → exec (.bufGet h i) s = .next { s with ret := .bufFault (.index i) })

/-- R105: BUF_SET writes the byte at a legal index, and no other, and faults at any other index; the cursor stays. -/
def Obligations.BufSetWrites : Prop :=
  ∀ (s : State) (h i : Nat) (v : Byte) (b : Buffer), s.bufs[h]? = some b →
    (i < b.data.length → ∃ d : List Byte, d.length = b.data.length ∧
      (∀ a, a < d.length → d[a]? = if a = i then some v else b.data[a]?) ∧
      exec (.bufSet h i v) s = .next { s with bufs := s.bufs.set h { data := d, pos := b.pos }, ret := .done }) ∧
    (b.data.length ≤ i → exec (.bufSet h i v) s = .next { s with ret := .bufFault (.index i) })

/-- R106: BUF_NEXT returns the byte at the cursor and moves it by one; at the end it faults. -/
def Obligations.BufNextReads : Prop :=
  ∀ (s : State) (h : Nat) (b : Buffer), s.bufs[h]? = some b →
    (b.pos < b.data.length → ∃ v : Byte, b.data[b.pos]? = some v ∧
      exec (.bufNext h) s =
        .next { s with bufs := s.bufs.set h { data := b.data, pos := b.pos + 1 }, ret := .byte v }) ∧
    (b.data.length ≤ b.pos → exec (.bufNext h) s = .next { s with ret := .bufFault (.underflow b.pos) })

/-- R107: BUF_NEXT24 returns three bytes big-endian and moves the cursor by three; with fewer left it faults and consumes
none. -/
def Obligations.BufNext24Reads : Prop :=
  ∀ (s : State) (h : Nat) (b : Buffer), s.bufs[h]? = some b →
    (b.pos + 3 ≤ b.data.length → ∃ (v0 v1 v2 : Byte) (v : BitVec 24), b.data[b.pos]? = some v0 ∧
      b.data[b.pos + 1]? = some v1 ∧ b.data[b.pos + 2]? = some v2 ∧
      v.toNat = v0.toNat * 65536 + v1.toNat * 256 + v2.toNat ∧
      exec (.bufNext24 h) s =
        .next { s with bufs := s.bufs.set h { data := b.data, pos := b.pos + 3 }, ret := .word24 v }) ∧
    (b.data.length < b.pos + 3 → exec (.bufNext24 h) s = .next { s with ret := .bufFault (.underflow b.pos) })

/-- R108: BUF_HASNEXT returns `pos < N` and changes no Buffer. -/
def Obligations.BufHasNextTells : Prop :=
  ∀ (s : State) (h : Nat) (b : Buffer), s.bufs[h]? = some b →
    exec (.bufHasNext h) s = .next { s with ret := .flag (decide (b.pos < b.data.length)) }

/-- R83, I15: a reserved bufop4 code 0x8..0xF ends in BufferIllegalOp with its code. -/
def Obligations.ReservedBufCodesRefused : Prop :=
  ∀ (s : State) (low : BitVec 3), ∃ code : BitVec 4, code.toNat = 8 + low.toNat ∧
    exec (.bufopReserved8toF low) s = .next { s with ret := .bufFault (.illegalOp code) }

/-! The link. -/

/-- R202: RESP_TX sends the pending ACK or NAK in one step: flush, write, count; a failed write sends a part, is reported,
is not counted and not retried. -/
def Obligations.RespTxSendsResponse : Prop :=
  ∀ (s : State) (k : Nat), k ≤ s.rxq.length → s.st = .wff → (∀ f w, s.tx ≠ .active f w) →
    (s.resp = .respAck → exec (.respTx k .ok) s =
      .next { s with rxq := s.rxq.take k, txw := s.txw ++ [0x06#8],
                     txStats := { s.txStats with ack := s.txStats.ack + 1 }, resp := .none }) ∧
    (s.resp = .respNak → exec (.respTx k .ok) s =
      .next { s with rxq := s.rxq.take k, txw := s.txw ++ [0x15#8],
                     txStats := { s.txStats with nak := s.txStats.nak + 1 }, resp := .none }) ∧
    (∀ m, m ≤ 1 → s.resp = .respAck → exec (.respTx k (.fail m)) s =
      .next { s with rxq := s.rxq.take k, txw := s.txw ++ [0x06#8].take m,
                     ev := s.ev ++ [.report .transportIoError], resp := .none }) ∧
    (∀ m, m ≤ 1 → s.resp = .respNak → exec (.respTx k (.fail m)) s =
      .next { s with rxq := s.rxq.take k, txw := s.txw ++ [0x15#8].take m,
                     ev := s.ev ++ [.report .transportIoError], resp := .none })

/-- R205, R206: TX_BEGIN flushes the input, keeping its first `k` bytes, and takes the lock. -/
def Obligations.TxBeginTakesLock : Prop :=
  ∀ (s : State) (k : Nat) (f : Frame) (w : List Byte), k ≤ s.rxq.length → s.tx = .queued f w → s.st = .wff →
    exec (.txBegin k) s = .next { s with rxq := s.rxq.take k, tx := .active f w } ∧
    ({ s with rxq := s.rxq.take k, tx := .active f w } : State).lock = .heldTx

/-- R207: TX_END puts the whole frame on the wire and counts it by its type, or puts a part on the wire and reports; the
slot is Idle after it. -/
def Obligations.TxEndWritesFrame : Prop :=
  ∀ (s : State) (f : Frame) (w : List Byte), s.tx = .active f w →
    (∃ t : State, exec (.txEnd .ok) s = .next t ∧
      (∀ c : Stat, t.txStats.get c = s.txStats.get c + (if c = ftype f then 1 else 0)) ∧
      t = { s with txw := s.txw ++ w, txStats := t.txStats, tx := .idle }) ∧
    (∀ m, m ≤ w.length → exec (.txEnd (.fail m)) s =
      .next { s with txw := s.txw ++ w.take m, ev := s.ev ++ [.report .transportIoError], tx := .idle })

/-- R211: an arrival joins the tail of `rxq`, in order, in every state. -/
def Obligations.RxArriveAppends : Prop :=
  ∀ (s : State) (bs : List Byte), exec (.rxArrive bs) s = .next { s with rxq := s.rxq ++ bs }

/-- R212: a statistics read, in every state, returns the counter's value and changes nothing of the block. -/
def Obligations.StatsReadReturnsCount : Prop :=
  ∀ (s : State) (c : Stat),
    exec (.statsRead (.rx c)) s = .next { s with ret := .count (match c with
      | .ack => s.rxStats.ack | .nak => s.rxStats.nak | .can => s.rxStats.can | .data => s.rxStats.data
      | .oof => s.rxStats.oof) } ∧
    exec (.statsRead (.tx c)) s = .next { s with ret := .count (match c with
      | .ack => s.txStats.ack | .nak => s.txStats.nak | .can => s.txStats.can | .data => s.txStats.data
      | .oof => s.txStats.oof) }

/-! Values. -/

/-- R39, R271: what the spec states of the power-on state. -/
def Obligations.PowerOnValues : Prop :=
  State.reset.st = .wff ∧ State.reset.resp = .none ∧ State.reset.tx = .idle ∧ State.reset.lock = .free ∧
  (∀ c : Stat, State.reset.rxStats.get c = 0 ∧ State.reset.txStats.get c = 0) ∧
  State.reset.ev = [] ∧ State.reset.rxq = [] ∧ State.reset.txw = []

/-- R240: the condition codes. -/
def Obligations.ConditionCodes : Prop :=
  (∀ (a b : Byte) (n : Nat) (op : BitVec 4),
    Report.code (.malformedLength a) = 0x01#8 ∧ Report.code (.malformedKind a) = 0x02#8 ∧
    Report.code (.checksumMismatch a b) = 0x03#8 ∧ Report.code (.lengthOutOfRange a) = 0x04#8 ∧
    Report.code .transportIoError = 0x05#8 ∧ Report.code (.encodeLengthError n) = 0x06#8 ∧
    Report.code (.illegalHostOp op) = 0x07#8 ∧
    BufFault.code (.underflow n) = 0x10#8 ∧ BufFault.code (.index n) = 0x11#8 ∧ BufFault.code (.value n) = 0x12#8 ∧
    BufFault.code (.illegalOp op) = 0x13#8)
end

