-- ==== Sys2Proof/Laws/Memory.lean ====
section
/-! SUPPORT. The byte store: what is read after a write, and that every operation keeps the canonical form. -/

namespace Sys2Proof.Machine

/-- The canonical form as propositions. -/
theorem Memory.wf_iff (m : Memory) :
    m.wf = true ↔ m.Pairwise (fun x y => x.1 < y.1) ∧ ∀ c ∈ m, c.2 ≠ Config.unlistedByte := by
  simp [Memory.wf]

theorem Memory.wf_nil : Memory.wf [] = true := by decide

/-- A canonical store is a first entry below all the others, in front of a canonical store. -/
theorem Memory.wf_cons (k : Nat) (v : Byte) (m : Memory) :
    Memory.wf ((k, v) :: m) = true ↔
      (∀ c ∈ m, k < c.1) ∧ v ≠ Config.unlistedByte ∧ Memory.wf m = true := by
  simp only [Memory.wf_iff, List.pairwise_cons, List.mem_cons, forall_eq_or_imp]
  tauto

@[simp] theorem Memory.read_nil (a : Nat) : Memory.read [] a = Config.unlistedByte := rfl

theorem Memory.read_cons (k : Nat) (v : Byte) (m : Memory) (a : Nat) :
    Memory.read ((k, v) :: m) a = if k = a then v else m.read a := rfl

/-- An index below every entry is not listed. -/
theorem Memory.read_below (m : Memory) (a : Nat) (h : ∀ c ∈ m, a < c.1) : m.read a = Config.unlistedByte := by
  induction m with
  | nil => rfl
  | cons c m ih =>
    obtain ⟨k, v⟩ := c
    have hk : a < k := h (k, v) (by simp)
    rw [Memory.read_cons, if_neg (by omega)]
    exact ih (fun c hc => h c (by simp [hc]))

/-- Reading through a new first entry. -/
theorem Memory.read_consCell (a : Nat) (v : Byte) (m : Memory) (h : ∀ c ∈ m, a < c.1) (x : Nat) :
    (Memory.consCell a v m).read x = if x = a then v else m.read x := by
  unfold Memory.consCell
  split
  · rename_i hv
    split
    · subst_vars; exact Memory.read_below m _ h
    · rfl
  · rw [Memory.read_cons]
    by_cases hx : x = a
    · simp [hx]
    · rw [if_neg hx, if_neg (Ne.symm hx)]

theorem Memory.mem_consCell {a : Nat} {v : Byte} {m : Memory} {c : Host.Cell} (h : c ∈ Memory.consCell a v m) :
    c.1 = a ∨ c ∈ m := by
  unfold Memory.consCell at h
  split at h
  · exact .inr h
  · rcases List.mem_cons.1 h with rfl | h
    · exact .inl rfl
    · exact .inr h

theorem Memory.wf_consCell (a : Nat) (v : Byte) (m : Memory) (h : ∀ c ∈ m, a < c.1) (hm : m.wf = true) :
    (Memory.consCell a v m).wf = true := by
  unfold Memory.consCell
  split
  · exact hm
  · rename_i hv
    exact (Memory.wf_cons a v m).2 ⟨h, hv, hm⟩

/-- The entries after a write are those before it and one at the written index. -/
theorem Memory.mem_write {m : Memory} {a : Nat} {v : Byte} {c : Host.Cell} (h : c ∈ m.write a v) :
    c.1 = a ∨ c ∈ m := by
  induction m with
  | nil => exact Memory.mem_consCell h
  | cons d m ih =>
    obtain ⟨k, w⟩ := d
    rw [Memory.write] at h
    split at h
    · exact Memory.mem_consCell h
    · split at h
      · rcases Memory.mem_consCell h with h | h
        · exact .inl h
        · exact .inr (by simp [h])
      · rcases List.mem_cons.1 h with rfl | h
        · exact .inr (by simp)
        · rcases ih h with h | h
          · exact .inl h
          · exact .inr (by simp [h])

/-- A write keeps the canonical form. -/
theorem Memory.wf_write (m : Memory) (a : Nat) (v : Byte) (hm : m.wf = true) : (m.write a v).wf = true := by
  induction m with
  | nil => exact Memory.wf_consCell a v [] (by simp) hm
  | cons d m ih =>
    obtain ⟨k, w⟩ := d
    obtain ⟨hlt, hw, hm'⟩ := (Memory.wf_cons k w m).1 hm
    rw [Memory.write]
    split
    · rename_i hak
      refine Memory.wf_consCell a v _ ?_ hm
      intro c hc
      rcases List.mem_cons.1 hc with rfl | hc
      · exact hak
      · exact lt_trans hak (hlt c hc)
    · split
      · subst_vars; exact Memory.wf_consCell _ v m hlt hm'
      · refine (Memory.wf_cons k w _).2 ⟨?_, hw, ih hm'⟩
        intro c hc
        rcases Memory.mem_write hc with h | h
        · omega
        · exact hlt c h

/-- A read after a write: the written byte at the written index, what was there anywhere else. -/
theorem Memory.read_write (m : Memory) (a : Nat) (v : Byte) (hm : m.wf = true) (x : Nat) :
    (m.write a v).read x = if x = a then v else m.read x := by
  induction m with
  | nil => exact Memory.read_consCell a v [] (by simp) x
  | cons d m ih =>
    obtain ⟨k, w⟩ := d
    obtain ⟨hlt, _, hm'⟩ := (Memory.wf_cons k w m).1 hm
    rw [Memory.write]
    split
    · rename_i hak
      refine Memory.read_consCell a v _ ?_ x
      intro c hc
      rcases List.mem_cons.1 hc with rfl | hc
      · exact hak
      · exact lt_trans hak (hlt c hc)
    · split
      · subst_vars
        rw [Memory.read_consCell _ v m hlt, Memory.read_cons]
        by_cases hx : x = k <;> simp [hx, eq_comm]
      · rw [Memory.read_cons, Memory.read_cons, ih hm']
        by_cases hx : k = x
        · subst hx
          rw [if_pos rfl, if_neg (by omega), if_pos rfl]
        · simp [hx]

/-- A tabulated store is canonical, lists indices in its range only, and reads as the function inside it. -/
theorem Memory.tabulateFrom_spec (f : Nat → Byte) (start n : Nat) :
    (Memory.tabulateFrom f start n).wf = true ∧
      (∀ c ∈ Memory.tabulateFrom f start n, start ≤ c.1 ∧ c.1 < start + n) ∧
      ∀ a, (Memory.tabulateFrom f start n).read a =
        if start ≤ a ∧ a < start + n then f a else Config.unlistedByte := by
  induction n generalizing start with
  | zero =>
    refine ⟨Memory.wf_nil, by simp [Memory.tabulateFrom], fun a => ?_⟩
    rw [if_neg (by omega)]
    rfl
  | succ n ih =>
    obtain ⟨hw, hb, hr⟩ := ih (start + 1)
    have hlt : ∀ c ∈ Memory.tabulateFrom f (start + 1) n, start < c.1 := fun c hc => by have := hb c hc; omega
    refine ⟨Memory.wf_consCell _ _ _ hlt hw, ?_, ?_⟩
    · intro c hc
      rcases Memory.mem_consCell hc with h | h
      · omega
      · have := hb c h; omega
    · intro a
      rw [Memory.tabulateFrom, Memory.read_consCell _ _ _ hlt, hr]
      by_cases ha : a = start
      · subst ha; simp
      · rw [if_neg ha]
        by_cases h2 : start + 1 ≤ a ∧ a < start + 1 + n
        · rw [if_pos h2, if_pos (by omega)]
        · rw [if_neg h2, if_neg (by omega)]

@[simp] theorem Memory.bytes_length (m : Memory) (n : Nat) : (m.bytes n).length = n := by simp [Memory.bytes]

/-- One more byte read out. -/
theorem Memory.bytes_succ (m : Memory) (n : Nat) : m.bytes (n + 1) = m.bytes n ++ [m.read n] := by
  simp [Memory.bytes, List.range_succ]

/-- Reading out bytes below a written index. -/
theorem Memory.bytes_write (m : Memory) (a : Nat) (v : Byte) (n : Nat) (hm : m.wf = true) (h : n ≤ a) :
    (m.write a v).bytes n = m.bytes n := by
  simp only [Memory.bytes]
  refine List.map_congr_left fun i hi => ?_
  rw [Memory.read_write m a v hm, if_neg (by have := List.mem_range.1 hi; omega)]

end Sys2Proof.Machine
end

