-- ==== Sys2Proof/Laws/State.lean ====
section
/-! SUPPORT. The fields of the state after each named update: one lemma per field per update, true by definition. -/

namespace Sys2Proof.Machine

variable (s : State)

/-! `emit` -/

@[simp] theorem State.emit_params (e : Event) : (s.emit e).params = s.params := rfl
@[simp] theorem State.emit_st (e : Event) : (s.emit e).st = s.st := rfl
@[simp] theorem State.emit_len (e : Event) : (s.emit e).len = s.len := rfl
@[simp] theorem State.emit_cnt (e : Event) : (s.emit e).cnt = s.cnt := rfl
@[simp] theorem State.emit_kind (e : Event) : (s.emit e).kind = s.kind := rfl
@[simp] theorem State.emit_cmd (e : Event) : (s.emit e).cmd = s.cmd := rfl
@[simp] theorem State.emit_pay (e : Event) : (s.emit e).pay = s.pay := rfl
@[simp] theorem State.emit_acc (e : Event) : (s.emit e).acc = s.acc := rfl
@[simp] theorem State.emit_lenOk (e : Event) : (s.emit e).lenOk = s.lenOk := rfl
@[simp] theorem State.emit_resp (e : Event) : (s.emit e).resp = s.resp := rfl
@[simp] theorem State.emit_tx (e : Event) : (s.emit e).tx = s.tx := rfl
@[simp] theorem State.emit_rxStats (e : Event) : (s.emit e).rxStats = s.rxStats := rfl
@[simp] theorem State.emit_txStats (e : Event) : (s.emit e).txStats = s.txStats := rfl
@[simp] theorem State.emit_ev (e : Event) : (s.emit e).ev = s.ev ++ [e] := rfl
@[simp] theorem State.emit_rxq (e : Event) : (s.emit e).rxq = s.rxq := rfl
@[simp] theorem State.emit_txw (e : Event) : (s.emit e).txw = s.txw := rfl
@[simp] theorem State.emit_bufs (e : Event) : (s.emit e).bufs = s.bufs := rfl
@[simp] theorem State.emit_ret (e : Event) : (s.emit e).ret = s.ret := rfl
@[simp] theorem State.emit_sched (e : Event) : (s.emit e).sched = s.sched := rfl
@[simp] theorem State.emit_draws (e : Event) : (s.emit e).draws = s.draws := rfl

/-! `report` -/

@[simp] theorem State.report_params (r : Report) : (s.report r).params = s.params := rfl
@[simp] theorem State.report_st (r : Report) : (s.report r).st = s.st := rfl
@[simp] theorem State.report_len (r : Report) : (s.report r).len = s.len := rfl
@[simp] theorem State.report_cnt (r : Report) : (s.report r).cnt = s.cnt := rfl
@[simp] theorem State.report_kind (r : Report) : (s.report r).kind = s.kind := rfl
@[simp] theorem State.report_cmd (r : Report) : (s.report r).cmd = s.cmd := rfl
@[simp] theorem State.report_pay (r : Report) : (s.report r).pay = s.pay := rfl
@[simp] theorem State.report_acc (r : Report) : (s.report r).acc = s.acc := rfl
@[simp] theorem State.report_lenOk (r : Report) : (s.report r).lenOk = s.lenOk := rfl
@[simp] theorem State.report_resp (r : Report) : (s.report r).resp = s.resp := rfl
@[simp] theorem State.report_tx (r : Report) : (s.report r).tx = s.tx := rfl
@[simp] theorem State.report_rxStats (r : Report) : (s.report r).rxStats = s.rxStats := rfl
@[simp] theorem State.report_txStats (r : Report) : (s.report r).txStats = s.txStats := rfl
@[simp] theorem State.report_ev (r : Report) : (s.report r).ev = s.ev ++ [.report r] := rfl
@[simp] theorem State.report_rxq (r : Report) : (s.report r).rxq = s.rxq := rfl
@[simp] theorem State.report_txw (r : Report) : (s.report r).txw = s.txw := rfl
@[simp] theorem State.report_bufs (r : Report) : (s.report r).bufs = s.bufs := rfl
@[simp] theorem State.report_ret (r : Report) : (s.report r).ret = s.ret := rfl
@[simp] theorem State.report_sched (r : Report) : (s.report r).sched = s.sched := rfl
@[simp] theorem State.report_draws (r : Report) : (s.report r).draws = s.draws := rfl

/-! `wireOut` -/

@[simp] theorem State.wireOut_params (l : List Byte) : (s.wireOut l).params = s.params := rfl
@[simp] theorem State.wireOut_st (l : List Byte) : (s.wireOut l).st = s.st := rfl
@[simp] theorem State.wireOut_len (l : List Byte) : (s.wireOut l).len = s.len := rfl
@[simp] theorem State.wireOut_cnt (l : List Byte) : (s.wireOut l).cnt = s.cnt := rfl
@[simp] theorem State.wireOut_kind (l : List Byte) : (s.wireOut l).kind = s.kind := rfl
@[simp] theorem State.wireOut_cmd (l : List Byte) : (s.wireOut l).cmd = s.cmd := rfl
@[simp] theorem State.wireOut_pay (l : List Byte) : (s.wireOut l).pay = s.pay := rfl
@[simp] theorem State.wireOut_acc (l : List Byte) : (s.wireOut l).acc = s.acc := rfl
@[simp] theorem State.wireOut_lenOk (l : List Byte) : (s.wireOut l).lenOk = s.lenOk := rfl
@[simp] theorem State.wireOut_resp (l : List Byte) : (s.wireOut l).resp = s.resp := rfl
@[simp] theorem State.wireOut_tx (l : List Byte) : (s.wireOut l).tx = s.tx := rfl
@[simp] theorem State.wireOut_rxStats (l : List Byte) : (s.wireOut l).rxStats = s.rxStats := rfl
@[simp] theorem State.wireOut_txStats (l : List Byte) : (s.wireOut l).txStats = s.txStats := rfl
@[simp] theorem State.wireOut_ev (l : List Byte) : (s.wireOut l).ev = s.ev := rfl
@[simp] theorem State.wireOut_rxq (l : List Byte) : (s.wireOut l).rxq = s.rxq := rfl
@[simp] theorem State.wireOut_txw (l : List Byte) : (s.wireOut l).txw = s.txw ++ l := rfl
@[simp] theorem State.wireOut_bufs (l : List Byte) : (s.wireOut l).bufs = s.bufs := rfl
@[simp] theorem State.wireOut_ret (l : List Byte) : (s.wireOut l).ret = s.ret := rfl
@[simp] theorem State.wireOut_sched (l : List Byte) : (s.wireOut l).sched = s.sched := rfl
@[simp] theorem State.wireOut_draws (l : List Byte) : (s.wireOut l).draws = s.draws := rfl

/-! `flushInput` -/

@[simp] theorem State.flushInput_params (k : Nat) : (s.flushInput k).params = s.params := rfl
@[simp] theorem State.flushInput_st (k : Nat) : (s.flushInput k).st = s.st := rfl
@[simp] theorem State.flushInput_len (k : Nat) : (s.flushInput k).len = s.len := rfl
@[simp] theorem State.flushInput_cnt (k : Nat) : (s.flushInput k).cnt = s.cnt := rfl
@[simp] theorem State.flushInput_kind (k : Nat) : (s.flushInput k).kind = s.kind := rfl
@[simp] theorem State.flushInput_cmd (k : Nat) : (s.flushInput k).cmd = s.cmd := rfl
@[simp] theorem State.flushInput_pay (k : Nat) : (s.flushInput k).pay = s.pay := rfl
@[simp] theorem State.flushInput_acc (k : Nat) : (s.flushInput k).acc = s.acc := rfl
@[simp] theorem State.flushInput_lenOk (k : Nat) : (s.flushInput k).lenOk = s.lenOk := rfl
@[simp] theorem State.flushInput_resp (k : Nat) : (s.flushInput k).resp = s.resp := rfl
@[simp] theorem State.flushInput_tx (k : Nat) : (s.flushInput k).tx = s.tx := rfl
@[simp] theorem State.flushInput_rxStats (k : Nat) : (s.flushInput k).rxStats = s.rxStats := rfl
@[simp] theorem State.flushInput_txStats (k : Nat) : (s.flushInput k).txStats = s.txStats := rfl
@[simp] theorem State.flushInput_ev (k : Nat) : (s.flushInput k).ev = s.ev := rfl
@[simp] theorem State.flushInput_rxq (k : Nat) : (s.flushInput k).rxq = s.rxq.take k := rfl
@[simp] theorem State.flushInput_txw (k : Nat) : (s.flushInput k).txw = s.txw := rfl
@[simp] theorem State.flushInput_bufs (k : Nat) : (s.flushInput k).bufs = s.bufs := rfl
@[simp] theorem State.flushInput_ret (k : Nat) : (s.flushInput k).ret = s.ret := rfl
@[simp] theorem State.flushInput_sched (k : Nat) : (s.flushInput k).sched = s.sched := rfl
@[simp] theorem State.flushInput_draws (k : Nat) : (s.flushInput k).draws = s.draws := rfl

/-! `consume` -/

@[simp] theorem State.consume_params : s.consume.params = s.params := rfl
@[simp] theorem State.consume_st : s.consume.st = s.st := rfl
@[simp] theorem State.consume_len : s.consume.len = s.len := rfl
@[simp] theorem State.consume_cnt : s.consume.cnt = s.cnt := rfl
@[simp] theorem State.consume_kind : s.consume.kind = s.kind := rfl
@[simp] theorem State.consume_cmd : s.consume.cmd = s.cmd := rfl
@[simp] theorem State.consume_pay : s.consume.pay = s.pay := rfl
@[simp] theorem State.consume_acc : s.consume.acc = s.acc := rfl
@[simp] theorem State.consume_lenOk : s.consume.lenOk = s.lenOk := rfl
@[simp] theorem State.consume_resp : s.consume.resp = s.resp := rfl
@[simp] theorem State.consume_tx : s.consume.tx = s.tx := rfl
@[simp] theorem State.consume_rxStats : s.consume.rxStats = s.rxStats := rfl
@[simp] theorem State.consume_txStats : s.consume.txStats = s.txStats := rfl
@[simp] theorem State.consume_ev : s.consume.ev = s.ev := rfl
@[simp] theorem State.consume_rxq : s.consume.rxq = s.rxq.tail := rfl
@[simp] theorem State.consume_txw : s.consume.txw = s.txw := rfl
@[simp] theorem State.consume_bufs : s.consume.bufs = s.bufs := rfl
@[simp] theorem State.consume_ret : s.consume.ret = s.ret := rfl
@[simp] theorem State.consume_sched : s.consume.sched = s.sched := rfl
@[simp] theorem State.consume_draws : s.consume.draws = s.draws := rfl

/-! `countRx` -/

@[simp] theorem State.countRx_params (c : Stat) : (s.countRx c).params = s.params := rfl
@[simp] theorem State.countRx_st (c : Stat) : (s.countRx c).st = s.st := rfl
@[simp] theorem State.countRx_len (c : Stat) : (s.countRx c).len = s.len := rfl
@[simp] theorem State.countRx_cnt (c : Stat) : (s.countRx c).cnt = s.cnt := rfl
@[simp] theorem State.countRx_kind (c : Stat) : (s.countRx c).kind = s.kind := rfl
@[simp] theorem State.countRx_cmd (c : Stat) : (s.countRx c).cmd = s.cmd := rfl
@[simp] theorem State.countRx_pay (c : Stat) : (s.countRx c).pay = s.pay := rfl
@[simp] theorem State.countRx_acc (c : Stat) : (s.countRx c).acc = s.acc := rfl
@[simp] theorem State.countRx_lenOk (c : Stat) : (s.countRx c).lenOk = s.lenOk := rfl
@[simp] theorem State.countRx_resp (c : Stat) : (s.countRx c).resp = s.resp := rfl
@[simp] theorem State.countRx_tx (c : Stat) : (s.countRx c).tx = s.tx := rfl
@[simp] theorem State.countRx_rxStats (c : Stat) : (s.countRx c).rxStats = s.rxStats.bump c := rfl
@[simp] theorem State.countRx_txStats (c : Stat) : (s.countRx c).txStats = s.txStats := rfl
@[simp] theorem State.countRx_ev (c : Stat) : (s.countRx c).ev = s.ev := rfl
@[simp] theorem State.countRx_rxq (c : Stat) : (s.countRx c).rxq = s.rxq := rfl
@[simp] theorem State.countRx_txw (c : Stat) : (s.countRx c).txw = s.txw := rfl
@[simp] theorem State.countRx_bufs (c : Stat) : (s.countRx c).bufs = s.bufs := rfl
@[simp] theorem State.countRx_ret (c : Stat) : (s.countRx c).ret = s.ret := rfl
@[simp] theorem State.countRx_sched (c : Stat) : (s.countRx c).sched = s.sched := rfl
@[simp] theorem State.countRx_draws (c : Stat) : (s.countRx c).draws = s.draws := rfl

/-! `countTx` -/

@[simp] theorem State.countTx_params (c : Stat) : (s.countTx c).params = s.params := rfl
@[simp] theorem State.countTx_st (c : Stat) : (s.countTx c).st = s.st := rfl
@[simp] theorem State.countTx_len (c : Stat) : (s.countTx c).len = s.len := rfl
@[simp] theorem State.countTx_cnt (c : Stat) : (s.countTx c).cnt = s.cnt := rfl
@[simp] theorem State.countTx_kind (c : Stat) : (s.countTx c).kind = s.kind := rfl
@[simp] theorem State.countTx_cmd (c : Stat) : (s.countTx c).cmd = s.cmd := rfl
@[simp] theorem State.countTx_pay (c : Stat) : (s.countTx c).pay = s.pay := rfl
@[simp] theorem State.countTx_acc (c : Stat) : (s.countTx c).acc = s.acc := rfl
@[simp] theorem State.countTx_lenOk (c : Stat) : (s.countTx c).lenOk = s.lenOk := rfl
@[simp] theorem State.countTx_resp (c : Stat) : (s.countTx c).resp = s.resp := rfl
@[simp] theorem State.countTx_tx (c : Stat) : (s.countTx c).tx = s.tx := rfl
@[simp] theorem State.countTx_rxStats (c : Stat) : (s.countTx c).rxStats = s.rxStats := rfl
@[simp] theorem State.countTx_txStats (c : Stat) : (s.countTx c).txStats = s.txStats.bump c := rfl
@[simp] theorem State.countTx_ev (c : Stat) : (s.countTx c).ev = s.ev := rfl
@[simp] theorem State.countTx_rxq (c : Stat) : (s.countTx c).rxq = s.rxq := rfl
@[simp] theorem State.countTx_txw (c : Stat) : (s.countTx c).txw = s.txw := rfl
@[simp] theorem State.countTx_bufs (c : Stat) : (s.countTx c).bufs = s.bufs := rfl
@[simp] theorem State.countTx_ret (c : Stat) : (s.countTx c).ret = s.ret := rfl
@[simp] theorem State.countTx_sched (c : Stat) : (s.countTx c).sched = s.sched := rfl
@[simp] theorem State.countTx_draws (c : Stat) : (s.countTx c).draws = s.draws := rfl

/-! `returns` -/

@[simp] theorem State.returns_params (r : Ret) : (s.returns r).params = s.params := rfl
@[simp] theorem State.returns_st (r : Ret) : (s.returns r).st = s.st := rfl
@[simp] theorem State.returns_len (r : Ret) : (s.returns r).len = s.len := rfl
@[simp] theorem State.returns_cnt (r : Ret) : (s.returns r).cnt = s.cnt := rfl
@[simp] theorem State.returns_kind (r : Ret) : (s.returns r).kind = s.kind := rfl
@[simp] theorem State.returns_cmd (r : Ret) : (s.returns r).cmd = s.cmd := rfl
@[simp] theorem State.returns_pay (r : Ret) : (s.returns r).pay = s.pay := rfl
@[simp] theorem State.returns_acc (r : Ret) : (s.returns r).acc = s.acc := rfl
@[simp] theorem State.returns_lenOk (r : Ret) : (s.returns r).lenOk = s.lenOk := rfl
@[simp] theorem State.returns_resp (r : Ret) : (s.returns r).resp = s.resp := rfl
@[simp] theorem State.returns_tx (r : Ret) : (s.returns r).tx = s.tx := rfl
@[simp] theorem State.returns_rxStats (r : Ret) : (s.returns r).rxStats = s.rxStats := rfl
@[simp] theorem State.returns_txStats (r : Ret) : (s.returns r).txStats = s.txStats := rfl
@[simp] theorem State.returns_ev (r : Ret) : (s.returns r).ev = s.ev := rfl
@[simp] theorem State.returns_rxq (r : Ret) : (s.returns r).rxq = s.rxq := rfl
@[simp] theorem State.returns_txw (r : Ret) : (s.returns r).txw = s.txw := rfl
@[simp] theorem State.returns_bufs (r : Ret) : (s.returns r).bufs = s.bufs := rfl
@[simp] theorem State.returns_ret (r : Ret) : (s.returns r).ret = r := rfl
@[simp] theorem State.returns_sched (r : Ret) : (s.returns r).sched = s.sched := rfl
@[simp] theorem State.returns_draws (r : Ret) : (s.returns r).draws = s.draws := rfl

/-! `resync` -/

@[simp] theorem State.resync_params (r : Report) : (s.resync r).params = s.params := rfl
@[simp] theorem State.resync_st (r : Report) : (s.resync r).st = .wff := rfl
@[simp] theorem State.resync_len (r : Report) : (s.resync r).len = s.len := rfl
@[simp] theorem State.resync_cnt (r : Report) : (s.resync r).cnt = s.cnt := rfl
@[simp] theorem State.resync_kind (r : Report) : (s.resync r).kind = s.kind := rfl
@[simp] theorem State.resync_cmd (r : Report) : (s.resync r).cmd = s.cmd := rfl
@[simp] theorem State.resync_pay (r : Report) : (s.resync r).pay = s.pay := rfl
@[simp] theorem State.resync_acc (r : Report) : (s.resync r).acc = s.acc := rfl
@[simp] theorem State.resync_lenOk (r : Report) : (s.resync r).lenOk = s.lenOk := rfl
@[simp] theorem State.resync_resp (r : Report) : (s.resync r).resp = .respNak := rfl
@[simp] theorem State.resync_tx (r : Report) : (s.resync r).tx = s.tx := rfl
@[simp] theorem State.resync_rxStats (r : Report) : (s.resync r).rxStats = s.rxStats := rfl
@[simp] theorem State.resync_txStats (r : Report) : (s.resync r).txStats = s.txStats := rfl
@[simp] theorem State.resync_ev (r : Report) : (s.resync r).ev = s.ev ++ [.report r] := rfl
@[simp] theorem State.resync_rxq (r : Report) : (s.resync r).rxq = s.rxq := rfl
@[simp] theorem State.resync_txw (r : Report) : (s.resync r).txw = s.txw := rfl
@[simp] theorem State.resync_bufs (r : Report) : (s.resync r).bufs = s.bufs := rfl
@[simp] theorem State.resync_ret (r : Report) : (s.resync r).ret = s.ret := rfl
@[simp] theorem State.resync_sched (r : Report) : (s.resync r).sched = s.sched := rfl
@[simp] theorem State.resync_draws (r : Report) : (s.resync r).draws = s.draws := rfl

/-! `newBuffer` -/

@[simp] theorem State.newBuffer_params (b : Buffer) : (s.newBuffer b).params = s.params := rfl
@[simp] theorem State.newBuffer_st (b : Buffer) : (s.newBuffer b).st = s.st := rfl
@[simp] theorem State.newBuffer_len (b : Buffer) : (s.newBuffer b).len = s.len := rfl
@[simp] theorem State.newBuffer_cnt (b : Buffer) : (s.newBuffer b).cnt = s.cnt := rfl
@[simp] theorem State.newBuffer_kind (b : Buffer) : (s.newBuffer b).kind = s.kind := rfl
@[simp] theorem State.newBuffer_cmd (b : Buffer) : (s.newBuffer b).cmd = s.cmd := rfl
@[simp] theorem State.newBuffer_pay (b : Buffer) : (s.newBuffer b).pay = s.pay := rfl
@[simp] theorem State.newBuffer_acc (b : Buffer) : (s.newBuffer b).acc = s.acc := rfl
@[simp] theorem State.newBuffer_lenOk (b : Buffer) : (s.newBuffer b).lenOk = s.lenOk := rfl
@[simp] theorem State.newBuffer_resp (b : Buffer) : (s.newBuffer b).resp = s.resp := rfl
@[simp] theorem State.newBuffer_tx (b : Buffer) : (s.newBuffer b).tx = s.tx := rfl
@[simp] theorem State.newBuffer_rxStats (b : Buffer) : (s.newBuffer b).rxStats = s.rxStats := rfl
@[simp] theorem State.newBuffer_txStats (b : Buffer) : (s.newBuffer b).txStats = s.txStats := rfl
@[simp] theorem State.newBuffer_ev (b : Buffer) : (s.newBuffer b).ev = s.ev := rfl
@[simp] theorem State.newBuffer_rxq (b : Buffer) : (s.newBuffer b).rxq = s.rxq := rfl
@[simp] theorem State.newBuffer_txw (b : Buffer) : (s.newBuffer b).txw = s.txw := rfl
@[simp] theorem State.newBuffer_bufs (b : Buffer) : (s.newBuffer b).bufs = s.bufs ++ [b] := rfl
@[simp] theorem State.newBuffer_ret (b : Buffer) : (s.newBuffer b).ret = .buffer s.bufs.length := rfl
@[simp] theorem State.newBuffer_sched (b : Buffer) : (s.newBuffer b).sched = s.sched := rfl
@[simp] theorem State.newBuffer_draws (b : Buffer) : (s.newBuffer b).draws = s.draws := rfl

/-! `putBuffer` -/

@[simp] theorem State.putBuffer_params (h : Nat) (b : Buffer) : (s.putBuffer h b).params = s.params := rfl
@[simp] theorem State.putBuffer_st (h : Nat) (b : Buffer) : (s.putBuffer h b).st = s.st := rfl
@[simp] theorem State.putBuffer_len (h : Nat) (b : Buffer) : (s.putBuffer h b).len = s.len := rfl
@[simp] theorem State.putBuffer_cnt (h : Nat) (b : Buffer) : (s.putBuffer h b).cnt = s.cnt := rfl
@[simp] theorem State.putBuffer_kind (h : Nat) (b : Buffer) : (s.putBuffer h b).kind = s.kind := rfl
@[simp] theorem State.putBuffer_cmd (h : Nat) (b : Buffer) : (s.putBuffer h b).cmd = s.cmd := rfl
@[simp] theorem State.putBuffer_pay (h : Nat) (b : Buffer) : (s.putBuffer h b).pay = s.pay := rfl
@[simp] theorem State.putBuffer_acc (h : Nat) (b : Buffer) : (s.putBuffer h b).acc = s.acc := rfl
@[simp] theorem State.putBuffer_lenOk (h : Nat) (b : Buffer) : (s.putBuffer h b).lenOk = s.lenOk := rfl
@[simp] theorem State.putBuffer_resp (h : Nat) (b : Buffer) : (s.putBuffer h b).resp = s.resp := rfl
@[simp] theorem State.putBuffer_tx (h : Nat) (b : Buffer) : (s.putBuffer h b).tx = s.tx := rfl
@[simp] theorem State.putBuffer_rxStats (h : Nat) (b : Buffer) : (s.putBuffer h b).rxStats = s.rxStats := rfl
@[simp] theorem State.putBuffer_txStats (h : Nat) (b : Buffer) : (s.putBuffer h b).txStats = s.txStats := rfl
@[simp] theorem State.putBuffer_ev (h : Nat) (b : Buffer) : (s.putBuffer h b).ev = s.ev := rfl
@[simp] theorem State.putBuffer_rxq (h : Nat) (b : Buffer) : (s.putBuffer h b).rxq = s.rxq := rfl
@[simp] theorem State.putBuffer_txw (h : Nat) (b : Buffer) : (s.putBuffer h b).txw = s.txw := rfl
@[simp] theorem State.putBuffer_bufs (h : Nat) (b : Buffer) : (s.putBuffer h b).bufs = s.bufs.set h b := rfl
@[simp] theorem State.putBuffer_ret (h : Nat) (b : Buffer) : (s.putBuffer h b).ret = s.ret := rfl
@[simp] theorem State.putBuffer_sched (h : Nat) (b : Buffer) : (s.putBuffer h b).sched = s.sched := rfl
@[simp] theorem State.putBuffer_draws (h : Nat) (b : Buffer) : (s.putBuffer h b).draws = s.draws := rfl

/-! `resetBlock` -/

@[simp] theorem State.resetBlock_params : s.resetBlock.params = s.params := rfl
@[simp] theorem State.resetBlock_st : s.resetBlock.st = .wff := rfl
@[simp] theorem State.resetBlock_len : s.resetBlock.len = Config.resetLen s.draws := rfl
@[simp] theorem State.resetBlock_cnt : s.resetBlock.cnt = Config.resetCnt s.draws := rfl
@[simp] theorem State.resetBlock_kind : s.resetBlock.kind = Config.resetKind s.draws := rfl
@[simp] theorem State.resetBlock_cmd : s.resetBlock.cmd = Config.resetCmd s.draws := rfl
@[simp] theorem State.resetBlock_pay : s.resetBlock.pay = Memory.tabulateFrom (Config.resetPay s.draws) 0 Config.payCap := rfl
@[simp] theorem State.resetBlock_acc : s.resetBlock.acc = Config.resetAcc s.draws := rfl
@[simp] theorem State.resetBlock_lenOk : s.resetBlock.lenOk = Config.resetLenOk s.draws := rfl
@[simp] theorem State.resetBlock_resp : s.resetBlock.resp = .none := rfl
@[simp] theorem State.resetBlock_tx : s.resetBlock.tx = .idle := rfl
@[simp] theorem State.resetBlock_rxStats : s.resetBlock.rxStats = {} := rfl
@[simp] theorem State.resetBlock_txStats : s.resetBlock.txStats = {} := rfl
@[simp] theorem State.resetBlock_ev : s.resetBlock.ev = s.ev := rfl
@[simp] theorem State.resetBlock_rxq : s.resetBlock.rxq = s.rxq := rfl
@[simp] theorem State.resetBlock_txw : s.resetBlock.txw = s.txw := rfl
@[simp] theorem State.resetBlock_bufs : s.resetBlock.bufs = s.bufs := rfl
@[simp] theorem State.resetBlock_ret : s.resetBlock.ret = s.ret := rfl
@[simp] theorem State.resetBlock_sched : s.resetBlock.sched = s.sched := rfl
@[simp] theorem State.resetBlock_draws : s.resetBlock.draws = s.draws + 1 := rfl

/-! `startFrame` (its byte is the operand) -/

@[simp] theorem startFrame_params (b : Byte) : (startFrame b s).params = s.params := rfl
@[simp] theorem startFrame_st (b : Byte) : (startFrame b s).st = .rf := rfl
@[simp] theorem startFrame_len (b : Byte) : (startFrame b s).len = b := rfl
@[simp] theorem startFrame_cnt (b : Byte) : (startFrame b s).cnt = 0x00#8 := rfl
@[simp] theorem startFrame_kind (b : Byte) : (startFrame b s).kind = s.kind := rfl
@[simp] theorem startFrame_cmd (b : Byte) : (startFrame b s).cmd = s.cmd := rfl
@[simp] theorem startFrame_pay (b : Byte) : (startFrame b s).pay = [] := rfl
@[simp] theorem startFrame_acc (b : Byte) : (startFrame b s).acc = accSeed b := rfl
@[simp] theorem startFrame_lenOk (b : Byte) : (startFrame b s).lenOk = lenFlag s.params b := rfl
@[simp] theorem startFrame_resp (b : Byte) : (startFrame b s).resp = s.resp := rfl
@[simp] theorem startFrame_tx (b : Byte) : (startFrame b s).tx = s.tx := rfl
@[simp] theorem startFrame_rxStats (b : Byte) : (startFrame b s).rxStats = s.rxStats := rfl
@[simp] theorem startFrame_txStats (b : Byte) : (startFrame b s).txStats = s.txStats := rfl
@[simp] theorem startFrame_ev (b : Byte) : (startFrame b s).ev = s.ev := rfl
@[simp] theorem startFrame_rxq (b : Byte) : (startFrame b s).rxq = s.rxq := rfl
@[simp] theorem startFrame_txw (b : Byte) : (startFrame b s).txw = s.txw := rfl
@[simp] theorem startFrame_bufs (b : Byte) : (startFrame b s).bufs = s.bufs := rfl
@[simp] theorem startFrame_ret (b : Byte) : (startFrame b s).ret = s.ret := rfl
@[simp] theorem startFrame_sched (b : Byte) : (startFrame b s).sched = s.sched := rfl
@[simp] theorem startFrame_draws (b : Byte) : (startFrame b s).draws = s.draws := rfl

/-! `completeSingle` -/

@[simp] theorem completeSingle_params (f : Frame) : (completeSingle f s).params = s.params := rfl
@[simp] theorem completeSingle_st (f : Frame) : (completeSingle f s).st = s.st := rfl
@[simp] theorem completeSingle_len (f : Frame) : (completeSingle f s).len = s.len := rfl
@[simp] theorem completeSingle_cnt (f : Frame) : (completeSingle f s).cnt = s.cnt := rfl
@[simp] theorem completeSingle_kind (f : Frame) : (completeSingle f s).kind = s.kind := rfl
@[simp] theorem completeSingle_cmd (f : Frame) : (completeSingle f s).cmd = s.cmd := rfl
@[simp] theorem completeSingle_pay (f : Frame) : (completeSingle f s).pay = s.pay := rfl
@[simp] theorem completeSingle_acc (f : Frame) : (completeSingle f s).acc = s.acc := rfl
@[simp] theorem completeSingle_lenOk (f : Frame) : (completeSingle f s).lenOk = s.lenOk := rfl
@[simp] theorem completeSingle_resp (f : Frame) : (completeSingle f s).resp = s.resp := rfl
@[simp] theorem completeSingle_tx (f : Frame) : (completeSingle f s).tx = s.tx := rfl
@[simp] theorem completeSingle_rxStats (f : Frame) : (completeSingle f s).rxStats = s.rxStats.bump (ftype f) := rfl
@[simp] theorem completeSingle_txStats (f : Frame) : (completeSingle f s).txStats = s.txStats := rfl
@[simp] theorem completeSingle_ev (f : Frame) : (completeSingle f s).ev = s.ev ++ [.frameOut f true true] := rfl
@[simp] theorem completeSingle_rxq (f : Frame) : (completeSingle f s).rxq = s.rxq := rfl
@[simp] theorem completeSingle_txw (f : Frame) : (completeSingle f s).txw = s.txw := rfl
@[simp] theorem completeSingle_bufs (f : Frame) : (completeSingle f s).bufs = s.bufs := rfl
@[simp] theorem completeSingle_ret (f : Frame) : (completeSingle f s).ret = s.ret := rfl
@[simp] theorem completeSingle_sched (f : Frame) : (completeSingle f s).sched = s.sched := rfl
@[simp] theorem completeSingle_draws (f : Frame) : (completeSingle f s).draws = s.draws := rfl

/-! `abortFrame` -/

@[simp] theorem State.abortFrame_params : s.abortFrame.params = s.params := rfl
@[simp] theorem State.abortFrame_st : s.abortFrame.st = .wff := rfl
@[simp] theorem State.abortFrame_len : s.abortFrame.len = s.len := rfl
@[simp] theorem State.abortFrame_cnt : s.abortFrame.cnt = s.cnt := rfl
@[simp] theorem State.abortFrame_kind : s.abortFrame.kind = s.kind := rfl
@[simp] theorem State.abortFrame_cmd : s.abortFrame.cmd = s.cmd := rfl
@[simp] theorem State.abortFrame_pay : s.abortFrame.pay = s.pay := rfl
@[simp] theorem State.abortFrame_acc : s.abortFrame.acc = s.acc := rfl
@[simp] theorem State.abortFrame_lenOk : s.abortFrame.lenOk = s.lenOk := rfl
@[simp] theorem State.abortFrame_resp : s.abortFrame.resp = if Config.timeoutNaks s.draws then .respNak else s.resp := rfl
@[simp] theorem State.abortFrame_tx : s.abortFrame.tx = s.tx := rfl
@[simp] theorem State.abortFrame_rxStats : s.abortFrame.rxStats = s.rxStats := rfl
@[simp] theorem State.abortFrame_txStats : s.abortFrame.txStats = s.txStats := rfl
@[simp] theorem State.abortFrame_ev : s.abortFrame.ev = s.ev := rfl
@[simp] theorem State.abortFrame_rxq : s.abortFrame.rxq = s.rxq := rfl
@[simp] theorem State.abortFrame_txw : s.abortFrame.txw = s.txw := rfl
@[simp] theorem State.abortFrame_bufs : s.abortFrame.bufs = s.bufs := rfl
@[simp] theorem State.abortFrame_ret : s.abortFrame.ret = s.ret := rfl
@[simp] theorem State.abortFrame_sched : s.abortFrame.sched = s.sched := rfl
@[simp] theorem State.abortFrame_draws : s.abortFrame.draws = s.draws + 1 := rfl

end Sys2Proof.Machine
end

