-- ==== Sys2Proof/Laws/Ops.lean ====
section
/-! SUPPORT. What each shared operation can do, said once: the provers cite these instead of unfolding the operations. -/

namespace Sys2Proof.Machine

/-! Small facts. -/

theorem inRules_iff (p : Phase) :
    p.inRules = true ↔ (p.st = .rf → 3 ≤ p.len.toNat ∧ p.cnt.toNat < p.len.toNat) := by
  by_cases h : p.st = .rf <;> simp [Phase.inRules, h]

theorem outsideRules_eq_false (s : State) :
    s.outsideRules = false ↔ (s.st = .rf → 3 ≤ s.len.toNat ∧ s.cnt.toNat < s.len.toNat) := by
  rw [State.outsideRules, Bool.not_eq_false', inRules_iff]
  rfl

theorem outsideRules_eq_true (s : State) :
    s.outsideRules = true ↔ s.st = .rf ∧ (s.len.toNat < 3 ∨ s.len.toNat ≤ s.cnt.toNat) := by
  rw [← Bool.not_eq_false, outsideRules_eq_false]
  by_cases h : s.st = .rf <;> simp [h]
  omega

/-- The lock is free exactly in WFF with no write in flight. -/
theorem lock_eq_free (s : State) : s.lock = .free ↔ s.st = .wff ∧ s.tx.isActive = false := by
  cases hst : s.st <;> cases htx : s.tx <;> simp [State.lock, TxSlot.isActive, hst, htx]

theorem lock_eq_heldRx (s : State) : s.lock = .heldRx ↔ s.st ≠ .wff := by
  cases hst : s.st <;> cases htx : s.tx <;> simp [State.lock, hst, htx]

theorem lock_eq_heldTx (s : State) : s.lock = .heldTx ↔ s.st = .wff ∧ s.tx.isActive = true := by
  cases hst : s.st <;> cases htx : s.tx <;> simp [State.lock, TxSlot.isActive, hst, htx]

theorem isActive_eq_true (t : TxSlot) : t.isActive = true ↔ ∃ f w, t = .active f w := by
  cases t <;> simp [TxSlot.isActive]

theorem isActive_eq_false (t : TxSlot) : t.isActive = false ↔ ∀ f w, t ≠ .active f w := by
  cases t <;> simp [TxSlot.isActive]

theorem offers_iff (s : State) (b : Byte) : s.offers b = true ↔ s.rxq.head? = some b ∧ s.resp = .none := by
  simp [State.offers]

/-- `kindByte` and `kindOf` are inverse (41_frame_codec.md R139). -/
theorem kindOf_kindByte (k : Kind) : kindOf (kindByte k) = some k := by cases k <;> decide

theorem kindOf_eq_some {b : Byte} {k : Kind} : kindOf b = some k ↔ b = kindByte k := by
  constructor
  · intro h
    unfold kindOf at h
    split at h
    · cases h; assumption
    · split at h
      · cases h; assumption
      · cases h
  · rintro rfl
    exact kindOf_kindByte k

theorem kindOf_eq_none {b : Byte} : kindOf b = none ↔ b ≠ 0x00#8 ∧ b ≠ 0x01#8 := by
  unfold kindOf
  simp only [Config.kindReq, Config.kindRes]
  by_cases h0 : b = 0x00#8
  · simp [h0]
  · by_cases h1 : b = 0x01#8 <;> simp [h0, h1]

theorem lenMalformed_iff (b : Byte) : lenMalformed b = true ↔ b.toNat < 3 := by simp [lenMalformed]

theorem admitted_iff (ps : Params) (n : Nat) :
    admitted ps n = true ↔ ps.encLenMin ≤ n + 3 ∧ n + 3 ≤ ps.encLenMax ∧ n + 3 ≤ 255 := by
  simp [admitted, and_assoc]

/-- The length byte of a payload that fits says its length (30_encoding.md R72). -/
theorem lengthByte_toNat {p : List Byte} (h : p.length + 3 ≤ 255) : (lengthByte p).toNat = p.length + 3 := by
  simp [lengthByte]
  omega

@[simp] theorem Stats.bump_get_self (x : Stats) (c : Stat) : (x.bump c).get c = x.get c + 1 := by cases c <;> rfl

theorem Stats.bump_get (x : Stats) (c d : Stat) : (x.bump c).get d = x.get d + (if d = c then 1 else 0) := by
  cases c <;> cases d <;> rfl

theorem ftype_ne_oof (f : Frame) : ftype f ≠ .oof := by cases f <;> simp [ftype]

/-! The checksum. -/

theorem xorfold_append (p q : List Byte) : xorfold (p ++ q) = xorfold p ^^^ xorfold q := by
  induction p with
  | nil => simp [xorfold]
  | cons b p ih => simp [xorfold, ih, BitVec.xor_assoc]

theorem xorfold_perm {p q : List Byte} (h : p.Perm q) : xorfold p = xorfold q := by
  induction h with
  | nil => rfl
  | cons b _ ih => simp [xorfold, ih]
  | swap a b l => simp only [xorfold]; rw [← BitVec.xor_assoc, ← BitVec.xor_assoc, BitVec.xor_comm a b]
  | trans _ _ ih1 ih2 => exact ih1.trans ih2

/-! The byte step. -/

/-- Everything a byte step can do (42_frame_decoder.md R160): it holds, it faults on registers outside the rules, or it
consumes its byte and does its operation. -/
theorem byteStep_cases (b : Byte) (sel : Bool) (f : State → State) (s : State) :
    (¬(s.offers b = true ∧ sel = true) ∧ byteStep b sel f s = .next s) ∨
    ((s.offers b = true ∧ sel = true) ∧ s.outsideRules = true ∧ byteStep b sel f s = .fault .decoderOutsideRules) ∨
    ((s.offers b = true ∧ sel = true) ∧ s.outsideRules = false ∧ byteStep b sel f s = .next (f s.consume)) := by
  unfold byteStep
  rw [offers_iff]
  by_cases h : s.rxq.head? = some b ∧ s.resp = .none ∧ sel = true
  · rw [if_pos h]
    cases ho : s.outsideRules
    · exact .inr (.inr ⟨⟨⟨h.1, h.2.1⟩, h.2.2⟩, rfl, by simp⟩)
    · exact .inr (.inl ⟨⟨⟨h.1, h.2.1⟩, h.2.2⟩, rfl, by simp⟩)
  · rw [if_neg h]
    exact .inl ⟨fun ⟨⟨h1, h2⟩, h3⟩ => h ⟨h1, h2, h3⟩, rfl⟩

/-- A byte step that is enabled, on registers inside the rules. -/
theorem byteStep_next {b : Byte} {sel : Bool} {f : State → State} {s : State} {q : List Byte}
    (hq : s.rxq = b :: q) (hr : s.resp = .none) (hsel : sel = true)
    (hin : s.st = .rf → 3 ≤ s.len.toNat ∧ s.cnt.toNat < s.len.toNat) :
    byteStep b sel f s = .next (f { s with rxq := q }) := by
  have ho := (outsideRules_eq_false s).2 hin
  have hc : s.consume = { s with rxq := q } := by simp [State.consume, hq]
  simp [byteStep, hq, hr, hsel, ho, hc]

/-- What RX_LEN does (42_frame_decoder.md R171). -/
theorem takeLength_cases (b : Byte) (s : State) :
    (b.toNat < 3 ∧ takeLength b s = s.resync (.malformedLength b)) ∨
    (3 ≤ b.toNat ∧ lenFlag s.params b = true ∧ takeLength b s = startFrame b s) ∨
    (3 ≤ b.toNat ∧ lenFlag s.params b = false ∧ takeLength b s = (startFrame b s).report (.lengthOutOfRange b)) := by
  unfold takeLength
  cases hm : lenMalformed b
  · have h3 : 3 ≤ b.toNat := by
      have := mt (lenMalformed_iff b).2 (by simp [hm])
      omega
    cases hl : lenFlag s.params b <;> simp [h3]
  · exact .inl ⟨(lenMalformed_iff b).1 hm, by simp⟩

/-- What completing a Data frame does (42_frame_decoder.md R177). -/
theorem completeData_cases (k : Kind) (b : Byte) (s : State) :
    (b = s.acc ∧ completeData k b s =
      { s with ev := s.ev ++ [.frameOut (.data s.len k s.cmd s.payload b) true s.lenOk],
               rxStats := s.rxStats.bump .data, resp := .respAck, st := .wff }) ∨
    (b ≠ s.acc ∧ completeData k b s =
      { s with ev := s.ev ++ [.frameOut (.data s.len k s.cmd s.payload b) false s.lenOk,
                 .report (.checksumMismatch b s.acc)],
               rxStats := s.rxStats.bump .data, resp := .respNak, st := .wff }) := by
  by_cases h : b = s.acc
  · left
    refine ⟨h, ?_⟩
    simp [completeData, chkFlag, h, State.emit, State.countRx, ftype]
  · right
    refine ⟨h, ?_⟩
    simp [completeData, chkFlag, h, State.emit, State.report, State.countRx, ftype]

/-- What RX_CHK does (42_frame_decoder.md R175). -/
theorem completeFrameAt_cases (b : Byte) (s : State) :
    ((s.kind ≠ 0x00#8 ∧ s.kind ≠ 0x01#8) ∧ completeFrameAt b s = s.resync (.malformedKind s.kind)) ∨
    (∃ k, s.kind = kindByte k ∧ completeFrameAt b s = completeData k b s) := by
  unfold completeFrameAt
  cases hk : kindOf s.kind with
  | none => exact .inl ⟨kindOf_eq_none.1 hk, rfl⟩
  | some k => exact .inr ⟨k, kindOf_eq_some.1 hk, rfl⟩

/-! The link steps. -/

/-- What RESP_TX does (43_link_io.md R202). -/
theorem execRespTx_cases (k : Nat) (r : WriteResult) (s : State) :
    execRespTx k r s = .next s ∨
    (∃ f, s.resp.frame = some f ∧ s.lock = .free ∧
      execRespTx k r s = .next { (s.flushInput k).sendResult f (encodeFrame f) r with resp := .none }) := by
  unfold execRespTx
  cases hf : s.resp.frame with
  | none => exact .inl rfl
  | some f =>
    by_cases hl : s.lock = .free
    · exact .inr ⟨f, rfl, hl, by simp [hl]⟩
    · exact .inl (by simp [hl])

/-- What TX_BEGIN does (R205). -/
theorem execTxBegin_cases (k : Nat) (s : State) :
    execTxBegin k s = .next s ∨
    (∃ f w, s.tx = .queued f w ∧ s.lock = .free ∧
      execTxBegin k s = .next { s.flushInput k with tx := .active f w }) := by
  unfold execTxBegin
  cases ht : s.tx with
  | idle => exact .inl rfl
  | active f w => exact .inl rfl
  | queued f w =>
    by_cases hl : s.lock = .free
    · exact .inr ⟨f, w, rfl, hl, by simp [hl]⟩
    · exact .inl (by simp [hl])

/-- What TX_END does (R207). -/
theorem execTxEnd_cases (r : WriteResult) (s : State) :
    execTxEnd r s = .next s ∨
    (∃ f w, s.tx = .active f w ∧ execTxEnd r s = .next { s.sendResult f w r with tx := .idle }) := by
  unfold execTxEnd
  cases ht : s.tx with
  | idle => exact .inl rfl
  | queued f w => exact .inl rfl
  | active f w => exact .inr ⟨f, w, rfl, rfl⟩

/-- The write of a frame that succeeds. -/
theorem sendResult_ok (s : State) (f : Frame) (w : List Byte) :
    s.sendResult f w .ok = { s with txw := s.txw ++ w, txStats := s.txStats.bump (ftype f) } := rfl

/-- The write of a frame that fails after `m` bytes. -/
theorem sendResult_fail (s : State) (f : Frame) (w : List Byte) (m : Nat) :
    s.sendResult f w (.fail m) = { s with txw := s.txw ++ w.take m, ev := s.ev ++ [.report .transportIoError] } := rfl

/-- What TX_SUBMIT does (R204). -/
theorem execTxSubmit_cases (f : Frame) (s : State) :
    execTxSubmit f s = .next s ∨
    (s.tx = .idle ∧ frameAdmitted s.params f = true ∧
      execTxSubmit f s = .next { s with tx := .queued (completeFrame f) (encodeFrame f) }) ∨
    (s.tx = .idle ∧ frameAdmitted s.params f = false ∧
      ∃ n, execTxSubmit f s = .next (s.report (.encodeLengthError n))) := by
  unfold execTxSubmit
  cases ht : s.tx with
  | queued f w => exact .inl rfl
  | active f w => exact .inl rfl
  | idle =>
    right
    cases f with
    | ack => exact .inl ⟨rfl, rfl, rfl⟩
    | nak => exact .inl ⟨rfl, rfl, rfl⟩
    | can => exact .inl ⟨rfl, rfl, rfl⟩
    | data l k c p x =>
      cases ha : admitted s.params p.length
      · exact .inr ⟨rfl, ha, p.length + 3, by simp [submitFrame, ha]⟩
      · exact .inl ⟨rfl, ha, by simp [submitFrame, ha]⟩

/-- What OPEN does (70_reset_and_hazards.md R272). -/
theorem execOpenPort_cases (s : State) :
    (s.tx ≠ .idle ∧ execOpenPort s = .next s) ∨
    (s.tx = .idle ∧ execOpenPort s = .next { s with st := .wff, resp := .none, tx := .queued .nak [0x15#8] }) := by
  unfold execOpenPort
  cases ht : s.tx with
  | queued f w => exact .inl ⟨by simp, rfl⟩
  | active f w => exact .inl ⟨by simp, rfl⟩
  | idle => exact .inr ⟨rfl, rfl⟩

/-! The payload cursor. -/

/-- Everything a cursor operation on a Buffer can do: nothing without the Buffer, the new Buffer and its value, or the
fault with the Buffers unchanged (40_payload_buffer.md R100, R110). -/
theorem withBuffer_cases {α : Type} (h : Nat) (op : Buffer → Except BufFault (α × Buffer)) (val : α → Ret) (s : State) :
    (s.bufs[h]? = none ∧ withBuffer h op val s = .next s) ∨
    (∃ b v b', s.bufs[h]? = some b ∧ op b = .ok (v, b') ∧
      withBuffer h op val s = .next { s with bufs := s.bufs.set h b', ret := val v }) ∨
    (∃ b e, s.bufs[h]? = some b ∧ op b = .error e ∧
      withBuffer h op val s = .next { s with ret := .bufFault e }) := by
  unfold withBuffer
  cases hb : s.bufs[h]? with
  | none => exact .inl ⟨rfl, rfl⟩
  | some b =>
    right
    cases ho : op b with
    | ok r => exact .inl ⟨b, r.1, r.2, rfl, ho, by simp [ho, State.putBuffer, State.returns]⟩
    | error e => exact .inr ⟨b, e, rfl, ho, by simp [ho, State.returns]⟩

/-! The byte steps as instances of the shared one. -/

theorem exec_rxSof (s : State) : exec .rxSof s =
    byteStep Config.sof (decide (s.st = .wff) && decide (s.lock = .free)) (fun t => { t with st := .wfl }) s := rfl

theorem exec_rxAck (s : State) :
    exec .rxAck s = byteStep Config.ack (decide (s.st = .wff)) (completeSingle .ack) s := rfl

theorem exec_rxNak (s : State) :
    exec .rxNak s = byteStep Config.nak (decide (s.st = .wff)) (completeSingle .nak) s := rfl

theorem exec_rxCan (s : State) :
    exec .rxCan s = byteStep Config.can (decide (s.st = .wff)) (completeSingle .can) s := rfl

theorem exec_rxNoise (b : Byte) (s : State) : exec (.rxNoise b) s =
    byteStep b (decide (s.st = .wff) && noiseByteOk b) (fun t => t.countRx .oof) s := rfl

theorem exec_rxLen (b : Byte) (s : State) :
    exec (.rxLen b) s = byteStep b (decide (s.st = .wfl)) (takeLength b) s := rfl

theorem exec_rxKind (b : Byte) (s : State) : exec (.rxKind b) s =
    byteStep b (decide (s.st = .rf) && decide (s.cnt.toNat = 0))
      (fun t => { t with kind := b, acc := accStep t.acc b, cnt := 0x01#8 }) s := rfl

theorem exec_rxCmd (b : Byte) (s : State) : exec (.rxCmd b) s =
    byteStep b (decide (s.st = .rf) && decide (s.cnt.toNat = 1))
      (fun t => { t with cmd := b, acc := accStep t.acc b, cnt := 0x02#8 }) s := rfl

theorem exec_rxPay (b : Byte) (s : State) : exec (.rxPay b) s =
    byteStep b (decide (s.st = .rf) && decide (2 ≤ s.cnt.toNat) && decide (s.cnt.toNat + 2 ≤ s.len.toNat))
      (fun t => { t with pay := t.pay.write (t.cnt.toNat - 2) b, acc := accStep t.acc b, cnt := t.cnt + 0x01#8 }) s :=
  rfl

theorem exec_rxChk (b : Byte) (s : State) : exec (.rxChk b) s =
    byteStep b (decide (s.st = .rf) && decide (s.cnt.toNat + 1 = s.len.toNat)) (completeFrameAt b) s := rfl

/-- Every operation of the decoder is a byte step: for one byte, one selection and one effect. -/
theorem exec_isByteStep {i : Instr} (h : i.isByteStep = true) (s : State) :
    ∃ b sel f, exec i s = byteStep b sel f s := by
  cases i with
  | rxSof => exact ⟨_, _, _, exec_rxSof s⟩
  | rxAck => exact ⟨_, _, _, exec_rxAck s⟩
  | rxNak => exact ⟨_, _, _, exec_rxNak s⟩
  | rxCan => exact ⟨_, _, _, exec_rxCan s⟩
  | rxNoise b => exact ⟨_, _, _, exec_rxNoise b s⟩
  | rxLen b => exact ⟨_, _, _, exec_rxLen b s⟩
  | rxKind b => exact ⟨_, _, _, exec_rxKind b s⟩
  | rxCmd b => exact ⟨_, _, _, exec_rxCmd b s⟩
  | rxPay b => exact ⟨_, _, _, exec_rxPay b s⟩
  | rxChk b => exact ⟨_, _, _, exec_rxChk b s⟩
  | _ => cases h

/-! The step. -/

/-- With an empty schedule nobody moves. -/
theorem step_nil {s : State} (h : s.sched = []) : step s = .next s := by simp [step, nextTurn, h]

/-- A step is the turn of the first move, on the state whose schedule no longer holds it. -/
theorem step_cons {s : State} {m : Move} {rest : List Move} (h : s.sched = m :: rest) :
    step s = takeTurn m { s with sched := rest } := by simp [step, nextTurn, h]

/-- What the timeout's turn can do: nothing, or the abort of a frame under assembly with no byte waiting (log 8). -/
theorem interbyteTimeout_cases (s : State) :
    (¬(s.params.rxInterbyteTimeout.isSome ∧ s.st ≠ .wff ∧ s.rxq = []) ∧ s.interbyteTimeout = s) ∨
    ((s.params.rxInterbyteTimeout.isSome ∧ s.st ≠ .wff ∧ s.rxq = []) ∧ s.interbyteTimeout = s.abortFrame) := by
  unfold State.interbyteTimeout
  split
  · exact .inr ⟨‹_›, rfl⟩
  · exact .inl ⟨‹_›, rfl⟩

/-- The response after an abort. -/
theorem abortFrame_resp_cases (s : State) : s.abortFrame.resp = .respNak ∨ s.abortFrame.resp = s.resp := by
  rw [State.abortFrame_resp]
  split
  · exact .inl rfl
  · exact .inr rfl

/-- The decoder answers "timeout" to the timeout's move only. -/
theorem decode_eq_timeout {p : Phase} {w : Fetched} (h : decode p w = .timeout) : w.move = .rxTimeout := by
  obtain ⟨m, rx⟩ := w
  cases m with
  | rxTimeout => rfl
  | rxByte => cases rx with
    | none => cases h
    | some b => simp only [decode, decodeByte] at h; repeat' split at h
                all_goals cases h
  | respond k r => cases r with
    | ok => cases h
    | fail m => simp only [decode] at h; split at h <;> cases h
  | arrive bs => cases bs <;> cases h
  | encoder b bus => simp only [decode, decodeFrameType] at h; repeat' split at h
                     all_goals cases h
  | beginTx k => cases h
  | endTx r => cases h
  | hostCmd op bus => cases h
  | cursor op bus => cases h
  | checksum a b c d => cases h
  | readStat c => cases h

/-- What a turn can answer: the agent held, the timeout ran, or the decoded operation ran. -/
theorem takeTurn_cases {m : Move} {s t : State} (h : takeTurn m s = .next t) :
    t = s ∨ (m = .rxTimeout ∧ t = s.interbyteTimeout) ∨ ∃ i, decodeAt s m = .instr i ∧ exec i s = .next t := by
  unfold takeTurn at h
  split at h
  · left; cases h; rfl
  · cases hd : decodeAt s m with
    | instr i => rw [hd] at h; exact .inr (.inr ⟨i, rfl, h⟩)
    | hold => rw [hd] at h; left; cases h; rfl
    | timeout => rw [hd] at h; cases h; exact .inr (.inl ⟨decode_eq_timeout hd, rfl⟩)
    | outsideRules => rw [hd] at h; cases h
    | rejected e => rw [hd] at h; cases h

/-- What a step can answer: nothing but the schedule moves, a frame under assembly is aborted, or one operation ran. -/
theorem step_cases {s t : State} (h : step s = .next t) :
    ∃ r, t = { s with sched := r } ∨
      (s.params.rxInterbyteTimeout.isSome ∧ s.st ≠ .wff ∧ s.rxq = [] ∧ t = ({ s with sched := r } : State).abortFrame) ∨
      ∃ i, exec i { s with sched := r } = .next t := by
  cases hs : s.sched with
  | nil => rw [step_nil hs] at h; cases h; exact ⟨s.sched, .inl rfl⟩
  | cons m rest =>
    rw [step_cons hs] at h
    rcases takeTurn_cases h with h | ⟨_, h⟩ | ⟨i, _, hi⟩
    · exact ⟨rest, .inl h⟩
    · rcases interbyteTimeout_cases { s with sched := rest } with ⟨_, e⟩ | ⟨⟨h1, h2, h3⟩, e⟩
      · exact ⟨rest, .inl (h.trans e)⟩
      · exact ⟨rest, .inr (.inl ⟨h1, h2, h3, h.trans e⟩)⟩
    · exact ⟨rest, .inr (.inr ⟨i, hi⟩)⟩

/-- A byte step's turn with a byte waiting and no response pending. -/
theorem takeTurn_rxByte {s : State} {b : Byte} {q : List Byte} (h : s.rxq = b :: q) (hr : s.resp = .none) :
    takeTurn .rxByte s = runDecoded (decodeByte s.phase b) s := by
  have hh : holdsByte s .rxByte = false := by simp [holdsByte, h, hr]
  have hd : decodeAt s .rxByte = decodeByte s.phase b := by simp [decodeAt, decode, fetch, h]
  rw [takeTurn, hh, hd]
  rfl

theorem runDecoded_instr (i : Instr) (s : State) : runDecoded (.instr i) s = exec i s := rfl

/-- The decoder answers "outside the rules" only there. -/
theorem decode_ne_outsideRules {p : Phase} (w : Fetched) (hp : p.inRules = true) : decode p w ≠ .outsideRules := by
  unfold decode
  split <;> (try simp)
  · split
    · simp only [decodeByte, hp]
      repeat' split
      all_goals simp_all
    · simp
  · split <;> simp
  · simp only [decodeFrameType]
    repeat' split
    all_goals simp

end Sys2Proof.Machine
end

