-- ==== Sys2Proof/Laws/PerInstr.lean ====
section
/-! SUPPORT. Families of lemmas with one lemma per constructor of `Instr`. -/

namespace Sys2Proof.Laws

/-- The encoding of an operation carries a wire byte exactly when the operation is a byte step of the decoder. -/
def EncodePort.Statement (i : Instr) : Prop :=
  (encode i).rx.isSome = i.isByteStep ∧ decide ((encode i).move = .rxByte) = i.isByteStep

theorem EncodePort.rxSof : EncodePort.Statement .rxSof := ⟨rfl, rfl⟩
theorem EncodePort.rxAck : EncodePort.Statement .rxAck := ⟨rfl, rfl⟩
theorem EncodePort.rxNak : EncodePort.Statement .rxNak := ⟨rfl, rfl⟩
theorem EncodePort.rxCan : EncodePort.Statement .rxCan := ⟨rfl, rfl⟩
theorem EncodePort.rxNoise : ∀ a, EncodePort.Statement (.rxNoise a) := fun _ => ⟨rfl, rfl⟩
theorem EncodePort.rxLen : ∀ a, EncodePort.Statement (.rxLen a) := fun _ => ⟨rfl, rfl⟩
theorem EncodePort.rxKind : ∀ a, EncodePort.Statement (.rxKind a) := fun _ => ⟨rfl, rfl⟩
theorem EncodePort.rxCmd : ∀ a, EncodePort.Statement (.rxCmd a) := fun _ => ⟨rfl, rfl⟩
theorem EncodePort.rxPay : ∀ a, EncodePort.Statement (.rxPay a) := fun _ => ⟨rfl, rfl⟩
theorem EncodePort.rxChk : ∀ a, EncodePort.Statement (.rxChk a) := fun _ => ⟨rfl, rfl⟩
theorem EncodePort.encAck : EncodePort.Statement .encAck := ⟨rfl, rfl⟩
theorem EncodePort.encNak : EncodePort.Statement .encNak := ⟨rfl, rfl⟩
theorem EncodePort.encCan : EncodePort.Statement .encCan := ⟨rfl, rfl⟩
theorem EncodePort.encData : ∀ a b c, EncodePort.Statement (.encData a b c) := fun _ _ _ => ⟨rfl, rfl⟩
theorem EncodePort.xsum : ∀ a b c d, EncodePort.Statement (.xsum a b c d) := fun _ _ _ _ => ⟨rfl, rfl⟩
theorem EncodePort.nop : EncodePort.Statement .nop := ⟨rfl, rfl⟩
theorem EncodePort.reset : ∀ a, EncodePort.Statement (.reset a) := fun _ => ⟨rfl, rfl⟩
theorem EncodePort.openPort : EncodePort.Statement .openPort := ⟨rfl, rfl⟩
theorem EncodePort.txSubmit : ∀ a, EncodePort.Statement (.txSubmit a) := fun _ => ⟨rfl, rfl⟩
theorem EncodePort.hostopReserved4to7 : ∀ a, EncodePort.Statement (.hostopReserved4to7 a) := fun _ => ⟨rfl, rfl⟩
theorem EncodePort.hostopReserved8toF : ∀ a, EncodePort.Statement (.hostopReserved8toF a) := fun _ => ⟨rfl, rfl⟩
theorem EncodePort.bufFromValues : ∀ a, EncodePort.Statement (.bufFromValues a) := fun _ => ⟨rfl, rfl⟩
theorem EncodePort.bufFromBytes : ∀ a, EncodePort.Statement (.bufFromBytes a) := fun _ => ⟨rfl, rfl⟩
theorem EncodePort.bufOfLength : ∀ a, EncodePort.Statement (.bufOfLength a) := fun _ => ⟨rfl, rfl⟩
theorem EncodePort.bufGet : ∀ a b, EncodePort.Statement (.bufGet a b) := fun _ _ => ⟨rfl, rfl⟩
theorem EncodePort.bufSet : ∀ a b c, EncodePort.Statement (.bufSet a b c) := fun _ _ _ => ⟨rfl, rfl⟩
theorem EncodePort.bufNext : ∀ a, EncodePort.Statement (.bufNext a) := fun _ => ⟨rfl, rfl⟩
theorem EncodePort.bufNext24 : ∀ a, EncodePort.Statement (.bufNext24 a) := fun _ => ⟨rfl, rfl⟩
theorem EncodePort.bufHasNext : ∀ a, EncodePort.Statement (.bufHasNext a) := fun _ => ⟨rfl, rfl⟩
theorem EncodePort.bufopReserved8toF : ∀ a, EncodePort.Statement (.bufopReserved8toF a) := fun _ => ⟨rfl, rfl⟩
theorem EncodePort.respTx : ∀ a b, EncodePort.Statement (.respTx a b) := fun _ _ => ⟨rfl, rfl⟩
theorem EncodePort.txBegin : ∀ a, EncodePort.Statement (.txBegin a) := fun _ => ⟨rfl, rfl⟩
theorem EncodePort.txEnd : ∀ a, EncodePort.Statement (.txEnd a) := fun _ => ⟨rfl, rfl⟩
theorem EncodePort.rxArrive : ∀ a, EncodePort.Statement (.rxArrive a) := fun _ => ⟨rfl, rfl⟩
theorem EncodePort.statsRead : ∀ a, EncodePort.Statement (.statsRead a) := fun _ => ⟨rfl, rfl⟩

end Sys2Proof.Laws
end

