-- ==== Sys2Proof/Tests/Slice0.lean ====
section
/-! SUPPORT. Tests of the model: the checks of WellFormed, one word per operation written out from its encoding, one-step
tests whose expected values stand in the spec (95_test_vectors.md or the rule named), and for each statement with
hypotheses a witness that meets them. -/

namespace Sys2Proof.Tests

open Sys2Proof Sys2Proof.Machine

/-! Small states. -/

/-- After reset, with bytes waiting. -/
def wffWith (q : List Byte) : State := { State.reset with rxq := q }

/-- Waiting for a length. -/
def wflWith (q : List Byte) : State := { State.reset with rxq := q, st := .wfl }

/-- Reading a frame without payload bytes so far. -/
def rfWith (len cnt kind cmd acc : Byte) (q : List Byte) : State :=
  { State.reset with rxq := q, st := .rf, len := len, cnt := cnt, kind := kind, cmd := cmd, acc := acc, lenOk := lenFlag Params.default len }

/-- A host NAK queued. -/
def queuedNak : State := { State.reset with tx := .queued .nak [0x15#8], rxq := [0x42#8, 0x43#8] }

/-- A host NAK in flight. -/
def activeNak (q : List Byte) : State := { State.reset with tx := .active .nak [0x15#8], rxq := q }

/-- A response pending. -/
def pending (r : Resp) : State := { State.reset with resp := r, rxq := [0x01#8, 0x02#8] }

/-- One Buffer. -/
def withData (d : List Byte) (pos : Nat) : State := { State.reset with bufs := [{ data := d, pos := pos }] }

/-- A schedule. -/
def State.moves (s : State) (l : List Move) : State := { s with sched := l }

/-- One field of the next state, if there is one. -/
def after {α : Type} (r : Result) (f : State → α) : Option α :=
  match r with
  | .next t => some (f t)
  | .fault _ => none
  | .refused _ => none

/-- The encoder with room for every length (00_scope.md R6, I9). -/
def wideParams : Params := { lenMin := 4, lenMax := 64, encLenMin := 3, encLenMax := 255 }

/-- Waiting for a length, with RX_INTERBYTE_TIMEOUT present (log 8). -/
def timed : State := { wflWith [] with params := { Params.default with rxInterbyteTimeout := some 1500 } }

/-! WellFormed refuses. -/

theorem test_wf_noise_refuses_marker : Instr.wf (.rxNoise 0x15#8) = false := by decide
theorem test_wf_arrive_refuses_empty : Instr.wf (.rxArrive []) = false := by decide
theorem test_wf_response_refuses_two : Instr.wf (.respTx 0 (.fail 2)) = false := by decide
theorem test_selected_len_not_in_wff : Instr.selectedIn tablePhase (.rxLen 0x04#8) = false := by decide
theorem test_selected_chk_not_below_three :
    Instr.selectedIn { st := .rf, len := 0x02#8, cnt := 0x01#8 } (.rxChk 0x00#8) = false := by decide

/-! Decoding, from words written out from the spec's encodings (30_encoding.md R71, R73, R75 to R77, R83). -/

theorem test_decode_markers :
    decode tablePhase (onWire 0b00000001#8) = .instr .rxSof ∧ decode tablePhase (onWire 0b00000110#8) = .instr .rxAck ∧
    decode tablePhase (onWire 0b00010101#8) = .instr .rxNak ∧ decode tablePhase (onWire 0b00011000#8) = .instr .rxCan := by
  decide
theorem test_decode_noise :
    decode tablePhase (onWire 0b00000000#8) = .instr (.rxNoise 0x00#8) ∧
    decode tablePhase (onWire 0b11111111#8) = .instr (.rxNoise 0xFF#8) := by decide
theorem test_decode_len :
    decode { st := .wfl, len := 0x00#8, cnt := 0x00#8 } (onWire 0b00000001#8) = .instr (.rxLen 0x01#8) := by decide
theorem test_decode_fields :
    decode { st := .rf, len := 0x04#8, cnt := 0x00#8 } (onWire 0b00000001#8) = .instr (.rxKind 0x01#8) ∧
    decode { st := .rf, len := 0x04#8, cnt := 0x01#8 } (onWire 0b00100000#8) = .instr (.rxCmd 0x20#8) ∧
    decode { st := .rf, len := 0x04#8, cnt := 0x02#8 } (onWire 0b11000110#8) = .instr (.rxPay 0xC6#8) ∧
    decode { st := .rf, len := 0x04#8, cnt := 0x03#8 } (onWire 0b10100000#8) = .instr (.rxChk 0xA0#8) := by decide
theorem test_decode_outside_rules :
    decode { st := .rf, len := 0x04#8, cnt := 0x04#8 } (onWire 0x00#8) = .outsideRules := by decide
theorem test_decode_timeout : decode tablePhase (atPort .rxTimeout) = .timeout := by decide
theorem test_decode_encoder :
    decode tablePhase (atPort (.encoder 0b00000110#8 {})) = .instr .encAck ∧
    decode tablePhase (atPort (.encoder 0b00010101#8 {})) = .instr .encNak ∧
    decode tablePhase (atPort (.encoder 0b00011000#8 {})) = .instr .encCan ∧
    decode tablePhase (atPort (.encoder 0b00000001#8 { kind := .response, cmd := 0x20#8, payload := [0xC6#8] })) =
      .instr (.encData .response 0x20#8 [0xC6#8]) ∧
    decode tablePhase (atPort (.encoder 0b00000000#8 {})) = .rejected (.noFrameType 0x00#8) := by decide
theorem test_decode_checksum :
    decode tablePhase (atPort (.checksum 0x08#8 0x01#8 0x20#8 [0xC6#8])) = .instr (.xsum 0x08#8 0x01#8 0x20#8 [0xC6#8]) := by
  decide
theorem test_decode_hostop :
    decode tablePhase (atPort (.hostCmd 0b0000#4 {})) = .instr .nop ∧
    decode tablePhase (atPort (.hostCmd 0b0001#4 { draw := 1 })) = .instr (.reset 1) ∧
    decode tablePhase (atPort (.hostCmd 0b0010#4 {})) = .instr .openPort ∧
    decode tablePhase (atPort (.hostCmd 0b0011#4 { frame := .can })) = .instr (.txSubmit .can) := by decide
theorem test_decode_hostop_reserved :
    decode tablePhase (atPort (.hostCmd 0b0100#4 {})) = .instr (.hostopReserved4to7 0b00#2) ∧
    decode tablePhase (atPort (.hostCmd 0b0111#4 {})) = .instr (.hostopReserved4to7 0b11#2) ∧
    decode tablePhase (atPort (.hostCmd 0b1000#4 {})) = .instr (.hostopReserved8toF 0b000#3) ∧
    decode tablePhase (atPort (.hostCmd 0b1101#4 {})) = .instr (.hostopReserved8toF 0b101#3) := by decide
theorem test_decode_bufop :
    decode tablePhase (atPort (.cursor 0b0000#4 { vs := [1, 256] })) = .instr (.bufFromValues [1, 256]) ∧
    decode tablePhase (atPort (.cursor 0b0001#4 { bs := [0x0A#8] })) = .instr (.bufFromBytes [0x0A#8]) ∧
    decode tablePhase (atPort (.cursor 0b0010#4 { n := 3 })) = .instr (.bufOfLength 3) ∧
    decode tablePhase (atPort (.cursor 0b0011#4 { buf := 1, idx := 2 })) = .instr (.bufGet 1 2) ∧
    decode tablePhase (atPort (.cursor 0b0100#4 { buf := 1, idx := 2, v := 0x07#8 })) = .instr (.bufSet 1 2 0x07#8) ∧
    decode tablePhase (atPort (.cursor 0b0101#4 { buf := 1 })) = .instr (.bufNext 1) ∧
    decode tablePhase (atPort (.cursor 0b0110#4 { buf := 1 })) = .instr (.bufNext24 1) ∧
    decode tablePhase (atPort (.cursor 0b0111#4 { buf := 1 })) = .instr (.bufHasNext 1) ∧
    decode tablePhase (atPort (.cursor 0b1010#4 {})) = .instr (.bufopReserved8toF 0b010#3) := by decide
theorem test_decode_link :
    decode tablePhase (atPort (.respond 1 (.fail 1))) = .instr (.respTx 1 (.fail 1)) ∧
    decode tablePhase (atPort (.beginTx 2)) = .instr (.txBegin 2) ∧
    decode tablePhase (atPort (.endTx (.fail 3))) = .instr (.txEnd (.fail 3)) ∧
    decode tablePhase (atPort (.arrive [0x01#8])) = .instr (.rxArrive [0x01#8]) ∧
    decode tablePhase (atPort (.readStat (.tx .data))) = .instr (.statsRead (.tx .data)) := by decide
theorem test_table_words :
    decodeTableWord 8 0x15 = some .rxNak ∧ decodeTableWord 8 0x20 = some (.rxNoise 0x20#8) ∧
    decodeTableWord 4 0x3 = some (.txSubmit .ack) ∧ decodeTableWord 8 0x7 = some (.bufHasNext 0) := by decide
theorem test_fetch_word_runs :
    after (step (State.reset.withFetchWord 8 0x15)) (fun t => (t.ev, t.rxq, t.sched)) = some ([.frameOut .nak true true], [], []) := by
  decide

/-! Helpers of the machine. -/

theorem test_reset_memory_wf : State.reset.pay.wf = true := by decide
theorem test_memory_write_keeps_form :
    Memory.write (Memory.write (Memory.write [] 5 0x01#8) 2 0x02#8) 5 0x00#8 = [(2, 0x02#8)] := by decide
/-- 41_frame_codec.md R130, the example of source scenario 2. -/
theorem test_xsum_example : xsum 0x08#8 0x01#8 0x20#8 [0xC6#8, 0x24#8, 0xF7#8, 0x62#8, 0x01#8] = 0xA0#8 := by decide
theorem test_state_code_three_is_wff : stOfBits 0b11#2 = .wff := by decide
theorem test_frame_payload_buffer :
    Frame.payloadBuffer (.data 0x05#8 .request 0x15#8 [0x0A#8, 0x0B#8] 0x00#8) = some { data := [0x0A#8, 0x0B#8], pos := 0 } := by
  decide
theorem test_count_of_width : countOfWidth 8 256 = 0 := by decide

/-! One step each. Expected values from the rule named. -/

theorem test_rxSof : after (exec .rxSof (wffWith [0x01#8, 0x06#8])) (fun t => (t.st, t.rxq, t.lock)) = some (.wfl, [0x06#8], .heldRx) := by
  decide
/-- R170: with the lock held by a transmission the agent holds. -/
theorem test_rxSof_waits : after (exec .rxSof (activeNak [0x01#8])) (fun t => (t.st, t.rxq)) = some (.wff, [0x01#8]) := by decide
theorem test_rxAck : after (exec .rxAck (activeNak [0x06#8])) (fun t => (t.ev, t.rxStats.ack, t.rxq)) = some ([.frameOut .ack true true], 1, []) := by
  decide
theorem test_rxNak : after (exec .rxNak (wffWith [0x15#8])) (fun t => (t.ev, t.rxStats.nak, t.resp)) = some ([.frameOut .nak true true], 1, .none) := by
  decide
theorem test_rxCan : after (exec .rxCan (wffWith [0x18#8])) (fun t => (t.ev, t.rxStats.can)) = some ([.frameOut .can true true], 1) := by
  decide
theorem test_rxNoise : after (exec (.rxNoise 0x02#8) (wffWith [0x02#8])) (fun t => (t.ev, t.rxStats.oof, t.rxq)) = some ([], 1, []) := by
  decide
theorem test_rxLen_short : after (exec (.rxLen 0x02#8) (wflWith [0x02#8])) (fun t => (t.st, t.resp, t.ev)) =
    some (.wff, .respNak, [.report (.malformedLength 0x02#8)]) := by decide
theorem test_rxLen_out_of_range : after (exec (.rxLen 0x41#8) (wflWith [0x41#8])) (fun t => (t.st, t.len, t.acc, t.lenOk, t.ev)) =
    some (.rf, 0x41#8, 0xBE#8, false, [.report (.lengthOutOfRange 0x41#8)]) := by decide
theorem test_rxKind : after (exec (.rxKind 0x01#8) (rfWith 0x08#8 0#8 0#8 0#8 0xF7#8 [0x01#8])) (fun t => (t.kind, t.acc, t.cnt)) =
    some (0x01#8, 0xF6#8, 0x01#8) := by decide
theorem test_rxCmd : after (exec (.rxCmd 0x20#8) (rfWith 0x08#8 1#8 1#8 0#8 0xF6#8 [0x20#8])) (fun t => (t.cmd, t.acc, t.cnt)) =
    some (0x20#8, 0xD6#8, 0x02#8) := by decide
theorem test_rxPay : after (exec (.rxPay 0x24#8) (rfWith 0x08#8 3#8 1#8 0x20#8 0x10#8 [0x24#8])) (fun t => (t.pay, t.acc, t.cnt)) =
    some ([(1, 0x24#8)], 0x34#8, 0x04#8) := by decide
theorem test_rxChk_mismatch : after (exec (.rxChk 0x00#8) (rfWith 0x03#8 2#8 0#8 0x15#8 0xE9#8 [0x00#8])) (fun t => (t.ev, t.resp, t.st, t.rxStats.data)) =
    some ([.frameOut (.data 0x03#8 .request 0x15#8 [] 0x00#8) false false, .report (.checksumMismatch 0x00#8 0xE9#8)], .respNak, .wff, 1) := by
  decide
/-- The last byte of source scenario 2: the checksum is accepted. -/
theorem test_rxChk_match :
    after (exec (.rxChk 0xA0#8) { rfWith 0x08#8 7#8 1#8 0x20#8 0xA0#8 [0xA0#8] with
      pay := [(0, 0xC6#8), (1, 0x24#8), (2, 0xF7#8), (3, 0x62#8), (4, 0x01#8)] }) (fun t => (t.ev, t.resp, t.st)) =
      some ([.frameOut (.data 0x08#8 .response 0x20#8 [0xC6#8, 0x24#8, 0xF7#8, 0x62#8, 0x01#8] 0xA0#8) true true], .respAck, .wff) := by
  decide
theorem test_encAck : after (exec .encAck State.reset) State.ret = some (.bytes [0x06#8]) := by decide
theorem test_encNak : after (exec .encNak State.reset) State.ret = some (.bytes [0x15#8]) := by decide
theorem test_encCan : after (exec .encCan State.reset) State.ret = some (.bytes [0x18#8]) := by decide
/-- Source scenario 2. -/
theorem test_encData :
    after (exec (.encData .response 0x20#8 [0xC6#8, 0x24#8, 0xF7#8, 0x62#8, 0x01#8]) State.reset) State.ret =
      some (.bytes [0x01#8, 0x08#8, 0x01#8, 0x20#8, 0xC6#8, 0x24#8, 0xF7#8, 0x62#8, 0x01#8, 0xA0#8]) := by decide
theorem test_xsum : after (exec (.xsum 0x08#8 0x01#8 0x20#8 [0xC6#8, 0x24#8, 0xF7#8, 0x62#8, 0x01#8]) State.reset) State.ret =
    some (.byte 0xA0#8) := by decide
theorem test_nop : after (exec .nop queuedNak) (fun t => (t.ev, t.tx)) = some ([], queuedNak.tx) := by decide
/-- R270: the write in flight is cut after `m` bytes; `rxq` stays. -/
theorem test_reset : after (exec (.reset 1) (activeNak [0x07#8])) (fun t => (t.txw, t.tx, t.rxq, t.st)) = some ([0x15#8], .idle, [0x07#8], .wff) := by
  decide
theorem test_openPort : after (exec .openPort (wflWith [])) (fun t => (t.st, t.tx)) = some (.wff, .queued .nak [0x15#8]) := by decide
theorem test_openPort_waits : after (exec .openPort queuedNak) State.tx = some queuedNak.tx := by decide
/-- R204: the host's own length and checksum are ignored. -/
theorem test_txSubmit : after (exec (.txSubmit (.data 0x77#8 .request 0x02#8 [0x05#8] 0x99#8)) State.reset) State.tx =
    some (.queued (.data 0x04#8 .request 0x02#8 [0x05#8] 0xFC#8) [0x01#8, 0x04#8, 0x00#8, 0x02#8, 0x05#8, 0xFC#8]) := by decide
theorem test_txSubmit_refused : after (exec (.txSubmit (.data 0x04#8 .request 0x02#8 [] 0x00#8)) State.reset) (fun t => (t.tx, t.ev)) =
    some (.idle, [.report (.encodeLengthError 3)]) := by decide
theorem test_hostopReserved4to7 : after (exec (.hostopReserved4to7 0b10#2) State.reset) State.ev = some [.report (.illegalHostOp 0x6#4)] := by
  decide
theorem test_hostopReserved8toF : after (exec (.hostopReserved8toF 0b101#3) State.reset) State.ev = some [.report (.illegalHostOp 0xD#4)] := by
  decide
theorem test_bufFromValues : after (exec (.bufFromValues [0, 255]) State.reset) State.bufs = some [{ data := [0x00#8, 0xFF#8], pos := 0 }] := by
  decide
theorem test_bufFromValues_fault : after (exec (.bufFromValues [3, -1, 256]) State.reset) (fun t => (t.bufs, t.ret)) =
    some ([], .bufFault (.value 1)) := by decide
theorem test_bufFromBytes : after (exec (.bufFromBytes [0x09#8]) (withData [] 0)) (fun t => (t.bufs.length, t.ret)) = some (2, .buffer 1) := by
  decide
theorem test_bufOfLength : after (exec (.bufOfLength 2) State.reset) State.bufs = some [{ data := [0x00#8, 0x00#8], pos := 0 }] := by decide
theorem test_bufGet : after (exec (.bufGet 0 1) (withData [0x0A#8, 0x0B#8] 0)) State.ret = some (.byte 0x0B#8) := by decide
theorem test_bufSet : after (exec (.bufSet 0 1 0x55#8) (withData [0x0A#8, 0x0B#8] 2)) State.bufs = some [{ data := [0x0A#8, 0x55#8], pos := 2 }] := by
  decide
theorem test_bufNext_end : after (exec (.bufNext 0) (withData [0x0A#8] 1)) (fun t => (t.ret, t.bufs)) =
    some (.bufFault (.underflow 1), [{ data := [0x0A#8], pos := 1 }]) := by decide
/-- R107, big-endian. -/
theorem test_bufNext24 : after (exec (.bufNext24 0) (withData [0x00#8, 0x01#8, 0x02#8, 0x03#8] 1)) (fun t => (t.ret, t.bufs.map Buffer.pos)) =
    some (.word24 0x010203#24, [4]) := by decide
theorem test_bufHasNext : after (exec (.bufHasNext 0) (withData [0x0A#8] 1)) State.ret = some (.flag false) := by decide
theorem test_bufopReserved8toF : after (exec (.bufopReserved8toF 0b010#3) State.reset) State.ret = some (.bufFault (.illegalOp 0xA#4)) := by
  decide
theorem test_respTx : after (exec (.respTx 1 .ok) (pending .respAck)) (fun t => (t.txw, t.rxq, t.txStats.ack, t.resp)) =
    some ([0x06#8], [0x01#8], 1, .none) := by decide
theorem test_respTx_fails : after (exec (.respTx 0 (.fail 0)) (pending .respNak)) (fun t => (t.txw, t.ev, t.txStats.nak, t.resp)) =
    some ([], [.report .transportIoError], 0, .none) := by decide
theorem test_txBegin : after (exec (.txBegin 0) queuedNak) (fun t => (t.rxq, t.lock)) = some ([], .heldTx) := by decide
theorem test_txEnd : after (exec (.txEnd .ok) (activeNak [])) (fun t => (t.txw, t.txStats.nak, t.tx)) = some ([0x15#8], 1, .idle) := by decide
theorem test_rxArrive : after (exec (.rxArrive [0x02#8, 0x03#8]) (wffWith [0x01#8])) State.rxq = some [0x01#8, 0x02#8, 0x03#8] := by decide
theorem test_statsRead : after (exec (.statsRead (.rx .oof)) { State.reset with rxStats := { oof := 7 } }) State.ret = some (.count 7) := by
  decide
/-- R178: by default there is no timeout. -/
theorem test_timeout_absent : after (step (State.moves (wflWith []) [.rxTimeout])) (fun t => (t.st, t.lock)) = some (.wfl, .heldRx) := by
  decide
/-- The model's own rule where RX_INTERBYTE_TIMEOUT is present (log 8): the frame is dropped and nothing is reported. -/
theorem test_timeout_present : after (step (State.moves timed [.rxTimeout])) (fun t => (t.st, t.lock, t.ev, t.txw)) =
    some (.wff, .free, [], []) := by decide
/-- R181: a stream of one CAN. -/
theorem test_decodeStream_can : after (decodeStream [0x18#8]) (fun t => (t.ev, t.txw, t.st)) = some ([.frameOut .can true true], [], .wff) := by
  decide

/-! Witnesses: for each statement with hypotheses, states and operands that meet them. -/

/-- The invariant in WFF with nothing queued. -/
theorem inv_wffWith (q : List Byte) : Inv (wffWith q) where
  inRules h := by cases h
  accRunning h := by cases h
  lenOkSet h := by cases h
  payClear h := by cases h
  payWf := rfl
  payBound c h := by cases h
  respInWff h := absurd rfl h
  lockExclusive h := absurd rfl h
  txQueued f w h := by cases h
  txActive f w h := by cases h
  txOof := rfl
  bufCursor b h := by cases h
  evValid e h := by cases h

/-- The invariant with a host NAK in flight. -/
theorem inv_activeNak (q : List Byte) : Inv (activeNak q) where
  inRules h := by cases h
  accRunning h := by cases h
  lenOkSet h := by cases h
  payClear h := by cases h
  payWf := rfl
  payBound c h := by cases h
  respInWff h := absurd rfl h
  lockExclusive h := absurd rfl h
  txQueued f w h := by cases h
  txActive f w h := by cases h; exact ⟨rfl, trivial⟩
  txOof := rfl
  bufCursor b h := by cases h
  evValid e h := by cases h

/-- The invariant with a response pending. -/
theorem inv_pending (r : Resp) : Inv (pending r) where
  inRules h := by cases h
  accRunning h := by cases h
  lenOkSet h := by cases h
  payClear h := by cases h
  payWf := rfl
  payBound c h := by cases h
  respInWff _ := rfl
  lockExclusive h := absurd rfl h
  txQueued f w h := by cases h
  txActive f w h := by cases h
  txOof := rfl
  bufCursor b h := by cases h
  evValid e h := by cases h

/-- The invariant in RF, all but the checksum byte of the three-byte frame of command 0x15 taken. -/
def lastOfThree (q : List Byte) : State := rfWith 0x03#8 2#8 0#8 0x15#8 0xE9#8 q

theorem inv_lastOfThree (q : List Byte) : Inv (lastOfThree q) where
  inRules _ := (by decide : 3 ≤ (0x03#8).toNat ∧ (0x02#8).toNat < (0x03#8).toNat)
  accRunning _ := (by decide : (lastOfThree []).acc = (lastOfThree []).accSoFar)
  lenOkSet _ := rfl
  payClear _ a _ := rfl
  payWf := rfl
  payBound c h := by cases h
  respInWff h := absurd rfl h
  lockExclusive _ := rfl
  txQueued f w h := by cases h
  txActive f w h := by cases h
  txOof := rfl
  bufCursor b h := by cases h
  evValid e h := by cases h

/-- A state with a schedule meets the invariant where the state does. -/
theorem inv_moves {s : State} (h : Inv s) (l : List Move) : Inv (State.moves s l) :=
  ⟨h.inRules, h.accRunning, h.lenOkSet, h.payClear, h.payWf, h.payBound, h.respInWff, h.lockExclusive, h.txQueued,
    h.txActive, h.txOof, h.bufCursor, h.evValid⟩

theorem witness_DecodeEncodeAgree :
    Instr.wf (.rxPay 0x06#8) = true ∧ Instr.selectedIn { st := .rf, len := 0xFF#8, cnt := 0xFD#8 } (.rxPay 0x06#8) = true := by
  decide
theorem witness_DecodedIsWellFormedAndSelected :
    decode { st := .rf, len := 0x03#8, cnt := 0x02#8 } (onWire 0x01#8) = .instr (.rxChk 0x01#8) ∧
    Instr.isByteStep (.rxChk 0x01#8) = true := by decide
/-- One value for each clause: the shortest and the longest frame at the ends of each range. -/
theorem witness_LaterByteSelectsOperation :
    (3 ≤ (0x03#8).toNat ∧ (0x02#8).toNat < (0x03#8).toNat ∧ (0x02#8).toNat = (0x03#8).toNat - 1) ∧
    (3 ≤ (0xFF#8).toNat ∧ (0xFE#8).toNat < (0xFF#8).toNat ∧ (0xFE#8).toNat = (0xFF#8).toNat - 1) ∧
    (3 ≤ (0x03#8).toNat ∧ (0x00#8).toNat < (0x03#8).toNat ∧ (0x00#8).toNat = 0) ∧
    (3 ≤ (0x03#8).toNat ∧ (0x01#8).toNat < (0x03#8).toNat ∧ (0x01#8).toNat = 1) ∧
    (3 ≤ (0x04#8).toNat ∧ (0x02#8).toNat < (0x04#8).toNat ∧ 2 ≤ (0x02#8).toNat ∧ (0x02#8).toNat ≤ (0x04#8).toNat - 2) ∧
    (3 ≤ (0xFF#8).toNat ∧ (0xFD#8).toNat < (0xFF#8).toNat ∧ 2 ≤ (0xFD#8).toNat ∧ (0xFD#8).toNat ≤ (0xFF#8).toNat - 2) ∧
    (0x02#8).toNat < 3 ∧ (0x04#8).toNat ≤ (0x04#8).toNat := by decide
theorem witness_StepRunsDecodedOperation :
    (State.moves (wffWith [0x15#8]) [.rxByte]).sched = [.rxByte] ∧
    decodeAt { State.moves (wffWith [0x15#8]) [.rxByte] with sched := [] } .rxByte = .instr .rxNak := by decide
/-- One state for each clause. -/
theorem witness_StepWithoutOperation :
    State.reset.sched = [] ∧
    ((State.moves State.reset [.rxByte]).sched = [.rxByte] ∧ (State.moves State.reset [.rxByte]).rxq = []) ∧
    (State.moves State.reset [.arrive []]).sched = [.arrive []] ∧
    ((State.moves State.reset [.respond 0 (.fail 2)]).sched = [.respond 0 (.fail 2)] ∧ 1 < 2) ∧
    ((State.moves State.reset [.encoder 0x00#8 {}]).sched = [.encoder 0x00#8 {}] ∧
      0x00#8 ∉ [0x01#8, 0x06#8, 0x15#8, 0x18#8]) ∧
    ((State.moves (wflWith []) [.rxTimeout]).sched = [.rxTimeout] ∧ (wflWith []).params.rxInterbyteTimeout = none) ∧
    ((State.moves timed [.rxTimeout]).sched = [.rxTimeout] ∧ timed.params.rxInterbyteTimeout ≠ none ∧ timed.st ≠ .wff ∧
      timed.rxq = []) := by decide
theorem witness_StepKeepsInvariant :
    Inv (State.moves (lastOfThree [0xE9#8]) [.rxByte]) ∧ ∃ t, step (State.moves (lastOfThree [0xE9#8]) [.rxByte]) = .next t :=
  ⟨inv_moves (inv_lastOfThree _) _, _, rfl⟩
theorem witness_InvariantStepNeverFaults : Inv (State.moves (lastOfThree [0xE9#8]) [.rxByte]) := inv_moves (inv_lastOfThree _) _
theorem witness_RunningChecksumIsXsum :
    Inv (lastOfThree []) ∧ (lastOfThree []).st = .rf ∧ (lastOfThree []).cnt.toNat + 1 = (lastOfThree []).len.toNat :=
  ⟨inv_lastOfThree _, rfl, rfl⟩
/-- A single-byte frame, a Data frame within the bounds, and an admitted one outside LEN_MIN..LEN_MAX. -/
theorem witness_RoundTripLaw :
    (let s := State.moves (wffWith [0x15#8]) [.rxByte]
     frameAdmitted s.params .nak = true ∧ s.st = .wff ∧ s.resp = .none ∧ s.lock ≠ .heldTx ∧ s.rxq = encodeFrame .nak ∧
      s.sched = List.replicate (encodeFrame .nak).length .rxByte ++ []) ∧
    (let f : Frame := .data 0#8 .request 0x02#8 [0x05#8] 0#8
     let s := State.moves (wffWith [0x01#8, 0x04#8, 0x00#8, 0x02#8, 0x05#8, 0xFC#8]) (List.replicate 6 .rxByte)
     frameAdmitted s.params f = true ∧ s.st = .wff ∧ s.resp = .none ∧ s.lock ≠ .heldTx ∧ s.rxq = encodeFrame f ∧
      s.sched = List.replicate (encodeFrame f).length .rxByte ++ [] ∧ s.params.lenMin ≤ s.params.encLenMin ∧
      s.params.encLenMax ≤ s.params.lenMax ∧ frameLenFlag s.params (completeFrame f) = true) ∧
    (let f : Frame := .data 0#8 .request 0x02#8 [] 0#8
     let s := State.moves { wffWith [0x01#8, 0x03#8, 0x00#8, 0x02#8, 0xFE#8] with params := wideParams } (List.replicate 5 .rxByte)
     frameAdmitted s.params f = true ∧ s.st = .wff ∧ s.resp = .none ∧ s.lock ≠ .heldTx ∧ s.rxq = encodeFrame f ∧
      s.sched = List.replicate (encodeFrame f).length .rxByte ++ [] ∧ frameLenFlag s.params (completeFrame f) = false) := by
  decide
theorem witness_ChecksumOrderIndependent : [0x01#8, 0x02#8].Perm [0x02#8, 0x01#8] := by decide
theorem witness_TracesOnlyGrow : ∃ t, step (State.moves (activeNak []) [.endTx .ok]) = .next t := ⟨_, rfl⟩
theorem witness_AtMostOneReportPerStep : ∃ t, step (State.moves (lastOfThree [0x00#8]) [.rxByte]) = .next t := ⟨_, rfl⟩
theorem witness_WireGrowsByOneFrame :
    Inv (State.moves (activeNak []) [.endTx .ok]) ∧ ∃ t, step (State.moves (activeNak []) [.endTx .ok]) = .next t :=
  ⟨inv_moves (inv_activeNak _) _, _, rfl⟩
theorem witness_NoWriteDuringAssembly :
    Inv (State.moves (lastOfThree []) [.endTx .ok]) ∧ (State.moves (lastOfThree []) [.endTx .ok]).st ≠ .wff ∧
    ∃ t, step (State.moves (lastOfThree []) [.endTx .ok]) = .next t :=
  ⟨inv_moves (inv_lastOfThree _) _, by decide, _, rfl⟩
/-- One state for each clause. -/
theorem witness_LockFollowsDecoderAndSlot :
    (wflWith []).st = .wfl ∧ (lastOfThree []).st = .rf ∧
    ((activeNak []).st = .wff ∧ (activeNak []).tx = .active .nak [0x15#8]) ∧
    (State.reset.st = .wff ∧ State.reset.tx = .idle) := by decide
/-- A frame, a malformed length and a malformed kind. -/
theorem witness_ErrorsAndFramesEndInWff :
    (∃ t, step (State.moves (wffWith [0x06#8]) [.rxByte]) = .next t ∧ t.ev = [] ++ [.frameOut .ack true true]) ∧
    (∃ t, step (State.moves (wflWith [0x02#8]) [.rxByte]) = .next t ∧ t.ev = [] ++ [.report (.malformedLength 0x02#8)]) ∧
    (∃ t, step (State.moves (rfWith 0x03#8 2#8 2#8 0#8 0#8 [0x00#8]) [.rxByte]) = .next t ∧
      t.ev = [] ++ [.report (.malformedKind 0x02#8)]) :=
  ⟨⟨_, rfl, rfl⟩, ⟨_, rfl, rfl⟩, ⟨_, rfl, rfl⟩⟩
theorem witness_ResponseMatchesOutcome :
    Instr.isByteStep (.rxChk 0xE9#8) = true ∧ (lastOfThree [0xE9#8]).resp = .none ∧
    ∃ t, exec (.rxChk 0xE9#8) (lastOfThree [0xE9#8]) = .next t ∧ t.resp = .respAck := ⟨rfl, rfl, _, rfl, rfl⟩
theorem witness_ItemsHaveTheirWriters : ∃ t, exec .openPort (wflWith []) = .next t := ⟨_, rfl⟩
theorem witness_CursorOpsTouchOnlyBuffers :
    Instr.isCursorOp (.bufGet 0 9) = true ∧ ∃ t, exec (.bufGet 0 9) (withData [0x0A#8] 0) = .next t ∧ t.ret = .bufFault (.index 9) :=
  ⟨rfl, _, rfl, rfl⟩
theorem witness_NotEnabledHolds : enabled .rxSof (activeNak [0x01#8]) = false := by decide
/-- One state for each clause; the last is outside the rules. -/
theorem witness_ExecCompletesInsideRules :
    (3 ≤ (lastOfThree []).len.toNat ∧ (lastOfThree []).cnt.toNat < (lastOfThree []).len.toNat) ∧
    exec (.rxKind 0x00#8) (rfWith 0x02#8 0#8 0#8 0#8 0#8 [0x00#8]) = .fault .decoderOutsideRules := ⟨by decide, rfl⟩
/-- The three cases of holding, and a state in which the agent moves. -/
theorem witness_RxAgentHoldsInThreeCases :
    (Inv (State.moves (wffWith []) [.rxByte]) ∧ (wffWith []).rxq = []) ∧
    (Inv (State.moves (pending .respAck) [.rxByte]) ∧ (pending .respAck).resp ≠ .none) ∧
    (Inv (State.moves (activeNak [0x01#8]) [.rxByte]) ∧ (activeNak [0x01#8]).st = .wff ∧
      (activeNak [0x01#8]).rxq.head? = some 0x01#8 ∧ (activeNak [0x01#8]).tx = .active .nak [0x15#8]) ∧
    (Inv (State.moves (activeNak [0x06#8]) [.rxByte]) ∧ (activeNak [0x06#8]).rxq ≠ [] ∧ (activeNak [0x06#8]).resp = .none ∧
      (activeNak [0x06#8]).rxq.head? ≠ some 0x01#8) :=
  ⟨⟨inv_moves (inv_wffWith _) _, rfl⟩, ⟨inv_moves (inv_pending _) _, by decide⟩,
    ⟨inv_moves (inv_activeNak _) _, rfl, rfl, rfl⟩, ⟨inv_moves (inv_activeNak _) _, by decide, rfl, by decide⟩⟩
/-- The timeout's move, with RX_INTERBYTE_TIMEOUT absent. -/
theorem witness_TruncatedFrameWaits :
    Inv (State.moves (lastOfThree []) [.rxTimeout]) ∧ (lastOfThree []).st ≠ .wff ∧ (lastOfThree []).rxq = [] ∧
    (lastOfThree []).params.rxInterbyteTimeout = none ∧ ∃ t, step (State.moves (lastOfThree []) [.rxTimeout]) = .next t :=
  ⟨inv_moves (inv_lastOfThree _) _, by decide, rfl, rfl, _, rfl⟩
theorem witness_CountersOnlyGrow : ∃ t, exec (.rxNoise 0x02#8) (wffWith [0x02#8]) = .next t := ⟨_, rfl⟩
theorem witness_RxSofTakesLock :
    (wffWith [0x01#8]).rxq = [0x01#8] ∧ (wffWith [0x01#8]).resp = .none ∧ (wffWith [0x01#8]).st = .wff ∧
    (wffWith [0x01#8]).tx = .idle := by decide
/-- One state for each clause; a transmission is in flight in the first. -/
theorem witness_RxSingleByteFrames :
    ((activeNak [0x06#8]).resp = .none ∧ (activeNak [0x06#8]).st = .wff ∧ (activeNak [0x06#8]).rxq = [0x06#8]) ∧
    ((wffWith [0x15#8]).resp = .none ∧ (wffWith [0x15#8]).st = .wff ∧ (wffWith [0x15#8]).rxq = [0x15#8]) ∧
    ((wffWith [0x18#8]).resp = .none ∧ (wffWith [0x18#8]).st = .wff ∧ (wffWith [0x18#8]).rxq = [0x18#8]) := by decide
theorem witness_RxNoiseCounted :
    0x00#8 ∉ [0x01#8, 0x06#8, 0x15#8, 0x18#8] ∧ (wffWith [0x00#8]).rxq = [0x00#8] ∧ (wffWith [0x00#8]).resp = .none ∧
    (wffWith [0x00#8]).st = .wff := by decide
/-- The ends of each clause's range: 2; 3; 4; 64; 65. -/
theorem witness_RxLenStartsAssembly :
    ((wflWith [0x02#8]).rxq = [0x02#8] ∧ (wflWith [0x02#8]).resp = .none ∧ (wflWith [0x02#8]).st = .wfl ∧ (0x02#8).toNat < 3) ∧
    ((wflWith [0x03#8]).rxq = [0x03#8] ∧ (wflWith [0x03#8]).st = .wfl ∧ 3 ≤ (0x03#8).toNat ∧ lenFlag Params.default 0x03#8 = false) ∧
    ((wflWith [0x04#8]).rxq = [0x04#8] ∧ (wflWith [0x04#8]).st = .wfl ∧ lenFlag Params.default 0x04#8 = true) ∧
    ((wflWith [0x40#8]).rxq = [0x40#8] ∧ (wflWith [0x40#8]).st = .wfl ∧ lenFlag Params.default 0x40#8 = true) ∧
    ((wflWith [0x41#8]).rxq = [0x41#8] ∧ (wflWith [0x41#8]).st = .wfl ∧ lenFlag Params.default 0x41#8 = false) := by decide
theorem witness_RxKindLatches :
    (rfWith 3#8 0#8 0#8 0#8 0#8 [0xFF#8]).rxq = [0xFF#8] ∧ (rfWith 3#8 0#8 0#8 0#8 0#8 [0xFF#8]).resp = .none ∧
    (rfWith 3#8 0#8 0#8 0#8 0#8 [0xFF#8]).st = .rf ∧ 3 ≤ (rfWith 3#8 0#8 0#8 0#8 0#8 [0xFF#8]).len.toNat ∧
    (rfWith 3#8 0#8 0#8 0#8 0#8 [0xFF#8]).cnt = 0x00#8 := by decide
theorem witness_RxCmdLatches :
    (rfWith 3#8 1#8 0#8 0#8 0#8 [0xFF#8]).rxq = [0xFF#8] ∧ (rfWith 3#8 1#8 0#8 0#8 0#8 [0xFF#8]).resp = .none ∧
    (rfWith 3#8 1#8 0#8 0#8 0#8 [0xFF#8]).st = .rf ∧ 3 ≤ (rfWith 3#8 1#8 0#8 0#8 0#8 [0xFF#8]).len.toNat ∧
    (rfWith 3#8 1#8 0#8 0#8 0#8 [0xFF#8]).cnt = 0x01#8 := by decide
theorem witness_RxPayStoresByte :
    (rfWith 0xFF#8 0xFD#8 0#8 0#8 0#8 [0x07#8]).rxq = [0x07#8] ∧ (rfWith 0xFF#8 0xFD#8 0#8 0#8 0#8 [0x07#8]).resp = .none ∧
    (rfWith 0xFF#8 0xFD#8 0#8 0#8 0#8 [0x07#8]).st = .rf ∧ 2 ≤ (0xFD#8).toNat ∧ (0xFD#8).toNat ≤ (0xFF#8).toNat - 2 ∧
    (rfWith 0xFF#8 0xFD#8 0#8 0#8 0#8 [0x07#8]).pay.wf = true := by decide
theorem witness_RxChkMalformedKind :
    (rfWith 3#8 2#8 2#8 0#8 0#8 [0x07#8]).rxq = [0x07#8] ∧ (rfWith 3#8 2#8 2#8 0#8 0#8 [0x07#8]).resp = .none ∧
    (rfWith 3#8 2#8 2#8 0#8 0#8 [0x07#8]).st = .rf ∧ 3 ≤ (3#8).toNat ∧ (2#8).toNat = (3#8).toNat - 1 ∧
    (rfWith 3#8 2#8 2#8 0#8 0#8 [0x07#8]).kind ∉ [0x00#8, 0x01#8] := by decide
/-- A matching checksum of a Request, and a mismatch of a Response. -/
theorem witness_RxChkCompletesData :
    ((lastOfThree [0xE9#8]).rxq = [0xE9#8] ∧ (lastOfThree [0xE9#8]).resp = .none ∧ (lastOfThree [0xE9#8]).st = .rf ∧
      (lastOfThree [0xE9#8]).cnt.toNat = (lastOfThree [0xE9#8]).len.toNat - 1 ∧ (lastOfThree [0xE9#8]).kind = 0x00#8 ∧
      0xE9#8 = (lastOfThree [0xE9#8]).acc) ∧
    ((rfWith 0xFF#8 0xFE#8 1#8 0#8 0#8 [0x01#8]).rxq = [0x01#8] ∧ (rfWith 0xFF#8 0xFE#8 1#8 0#8 0#8 [0x01#8]).resp = .none ∧
      (rfWith 0xFF#8 0xFE#8 1#8 0#8 0#8 [0x01#8]).st = .rf ∧ (0xFE#8).toNat = (0xFF#8).toNat - 1 ∧
      (rfWith 0xFF#8 0xFE#8 1#8 0#8 0#8 [0x01#8]).kind = 0x01#8 ∧ 0x01#8 ≠ (rfWith 0xFF#8 0xFE#8 1#8 0#8 0#8 [0x01#8]).acc) := by
  decide
/-- Payloads of 1 and 61 bytes are admitted, of 0 and 62 bytes are not. -/
theorem witness_EncDataBytes :
    admitted State.reset.params 1 = true ∧ admitted State.reset.params 61 = true ∧
    admitted State.reset.params 0 = false ∧ admitted State.reset.params 62 = false := by decide
theorem witness_ResetRestoresBlock :
    (activeNak []).tx = .active .nak [0x15#8] ∧ 1 ≤ [0x15#8].length ∧ queuedNak.tx.isActive = false := by decide
theorem witness_OpenQueuesNak : (wflWith []).tx = .idle := by decide
theorem witness_TxSubmitQueuesFrame :
    State.reset.tx = .idle ∧ admitted State.reset.params 61 = true ∧ admitted State.reset.params 62 = false := by decide
/-- All values in range; and a first value out of range at place 1, on either side of the range. -/
theorem witness_BufFromValuesBuilds :
    (∀ v ∈ [(0 : Int), 255], 0 ≤ v ∧ v ≤ 255) ∧ ([0, -1] : List Int)[1]? = some (-1) ∧ ([0, 256] : List Int)[1]? = some 256 := by decide
/-- The first and the last index, and the index one past the end. -/
theorem witness_BufGetReads :
    (withData [0x0A#8, 0x0B#8] 0).bufs[0]? = some { data := [0x0A#8, 0x0B#8], pos := 0 } ∧ 0 < 2 ∧ 1 < 2 ∧ 2 ≤ 2 := by decide
theorem witness_BufSetWrites :
    (withData [0x0A#8, 0x0B#8] 1).bufs[0]? = some { data := [0x0A#8, 0x0B#8], pos := 1 } ∧ 1 < [0x0A#8, 0x0B#8].length ∧
    [0x0A#8, 0x0B#8].length ≤ 2 := by decide
theorem witness_BufNextReads :
    ((withData [0x0A#8] 0).bufs[0]? = some { data := [0x0A#8], pos := 0 } ∧ 0 < [0x0A#8].length) ∧
    ((withData [0x0A#8] 1).bufs[0]? = some { data := [0x0A#8], pos := 1 } ∧ [0x0A#8].length ≤ 1) := by decide
theorem witness_BufNext24Reads :
    ((withData [1#8, 2#8, 3#8] 0).bufs[0]? = some { data := [1#8, 2#8, 3#8], pos := 0 } ∧ 0 + 3 ≤ [1#8, 2#8, 3#8].length) ∧
    ((withData [1#8, 2#8, 3#8] 1).bufs[0]? = some { data := [1#8, 2#8, 3#8], pos := 1 } ∧ [1#8, 2#8, 3#8].length < 1 + 3) := by decide
theorem witness_BufHasNextTells : (withData [0x0A#8] 0).bufs[0]? = some { data := [0x0A#8], pos := 0 } := by decide
/-- Both responses, with a draw that keeps nothing, and one that keeps everything. -/
theorem witness_RespTxSendsResponse :
    (2 ≤ (pending .respAck).rxq.length ∧ (pending .respAck).st = .wff ∧ (pending .respAck).tx = .idle ∧
      (pending .respAck).resp = .respAck ∧ 1 ≤ 1) ∧
    (0 ≤ (pending .respNak).rxq.length ∧ (pending .respNak).st = .wff ∧ (pending .respNak).tx = .idle ∧
      (pending .respNak).resp = .respNak ∧ 0 ≤ 1) := by decide
theorem witness_TxBeginTakesLock :
    2 ≤ queuedNak.rxq.length ∧ queuedNak.tx = .queued .nak [0x15#8] ∧ queuedNak.st = .wff := by decide
theorem witness_TxEndWritesFrame : (activeNak []).tx = .active .nak [0x15#8] ∧ 0 ≤ [0x15#8].length ∧ 1 ≤ [0x15#8].length := by decide

end Sys2Proof.Tests
end

section
/-! What an operation does while its enabling condition is false (00_scope.md R8, log 2): for each kind of operation, the
guard of `exec` is the condition `enabled` names, so nothing happens outside it. -/

namespace Sys2Proof.Proofs

open Sys2Proof Sys2Proof.Machine

/-! The byte steps. -/

theorem byteStep_of_not_enabled {b : Byte} {sel : Bool} {f : State → State} {s : State}
    (h : (s.offers b && sel) = false) : byteStep b sel f s = .next s := by
  have hoff : ¬(s.offers b = true ∧ sel = true) := by simpa using h
  rcases byteStep_cases b sel f s with ⟨_, hold⟩ | ⟨on, _⟩ | ⟨on, _⟩
  · exact hold
  · exact absurd on hoff
  · exact absurd on hoff

/-- A byte step is enabled exactly when the step it is an instance of is offered its byte and selected (42_frame_decoder.md
R160, R161). -/
theorem exec_isByteStep_enabled {i : Instr} (h : i.isByteStep = true) (s : State) :
    ∃ b sel f, enabled i s = (s.offers b && sel) ∧ exec i s = byteStep b sel f s := by
  cases i with
  | rxSof => exact ⟨_, _, _, Bool.and_assoc .., exec_rxSof s⟩
  | rxAck => exact ⟨_, _, _, rfl, exec_rxAck s⟩
  | rxNak => exact ⟨_, _, _, rfl, exec_rxNak s⟩
  | rxCan => exact ⟨_, _, _, rfl, exec_rxCan s⟩
  | rxNoise b => exact ⟨_, _, _, Bool.and_assoc .., exec_rxNoise b s⟩
  | rxLen b => exact ⟨_, _, _, rfl, exec_rxLen b s⟩
  | rxKind b => exact ⟨_, _, _, Bool.and_assoc .., exec_rxKind b s⟩
  | rxCmd b => exact ⟨_, _, _, Bool.and_assoc .., exec_rxCmd b s⟩
  | rxPay b => exact ⟨_, _, _, by simp only [enabled, Bool.and_assoc], exec_rxPay b s⟩
  | rxChk b => exact ⟨_, _, _, Bool.and_assoc .., exec_rxChk b s⟩
  | _ => cases h

theorem exec_isByteStep_of_not_enabled {i : Instr} (hi : i.isByteStep = true) {s : State}
    (h : enabled i s = false) : exec i s = .next s := by
  obtain ⟨b, sel, f, hen, hex⟩ := exec_isByteStep_enabled hi s
  rw [hex]
  exact byteStep_of_not_enabled (hen.symm.trans h)

/-! The cursor operations on a Buffer, as instances of the shared one. -/

theorem exec_bufGet (p idx : Nat) (s : State) : exec (.bufGet p idx) s =
    withBuffer p (fun b => (b.get idx).map (fun v => (v, b))) .byte s := rfl

theorem exec_bufSet (p idx : Nat) (v : Byte) (s : State) : exec (.bufSet p idx v) s =
    withBuffer p (fun b => (b.set idx v).map (fun b' => ((), b'))) (fun _ => .done) s := rfl

theorem exec_bufNext (p : Nat) (s : State) : exec (.bufNext p) s = withBuffer p Buffer.next .byte s := rfl

theorem exec_bufNext24 (p : Nat) (s : State) : exec (.bufNext24 p) s = withBuffer p Buffer.next24 .word24 s := rfl

theorem exec_bufHasNext (p : Nat) (s : State) : exec (.bufHasNext p) s =
    withBuffer p (fun b => .ok (b.hasNext, b)) .flag s := rfl

theorem withBuffer_of_not_lt {α : Type} {p : Nat} {op : Buffer → Except BufFault (α × Buffer)} {val : α → Ret}
    {s : State} (hlt : decide (p < s.bufs.length) = false) : withBuffer p op val s = .next s := by
  have absent : s.bufs[p]? = none := by simpa using hlt
  simp [withBuffer, absent]

/-! The host's operations and the link steps. -/

theorem execOpenPort_of_tx_ne_idle {s : State} (h : s.tx ≠ .idle) : execOpenPort s = .next s := by
  rcases execOpenPort_cases s with ⟨_, hold⟩ | ⟨idle, _⟩
  · exact hold
  · exact absurd idle h

theorem execTxSubmit_of_tx_ne_idle {f : Frame} {s : State} (h : s.tx ≠ .idle) : execTxSubmit f s = .next s := by
  rcases execTxSubmit_cases f s with hold | ⟨idle, _⟩ | ⟨idle, _⟩
  · exact hold
  · exact absurd idle h
  · exact absurd idle h

theorem execRespTx_of_not_enabled {k : Nat} {r : WriteResult} {s : State} (h : enabled (.respTx k r) s = false) :
    execRespTx k r s = .next s := by
  rcases execRespTx_cases k r s with hold | ⟨f, pending, free, _⟩
  · exact hold
  · have hresp : s.resp ≠ .none := by
      intro hnone
      rw [hnone] at pending
      cases pending
    simp [enabled, hresp, free] at h

theorem execTxBegin_of_not_enabled {k : Nat} {s : State} (h : enabled (.txBegin k) s = false) :
    execTxBegin k s = .next s := by
  rcases execTxBegin_cases k s with hold | ⟨f, w, queued, free, _⟩
  · exact hold
  · simp [enabled, queued, free] at h

theorem execTxEnd_of_not_enabled {r : WriteResult} {s : State} (h : enabled (.txEnd r) s = false) :
    execTxEnd r s = .next s := by
  rcases execTxEnd_cases r s with hold | ⟨f, w, active, _⟩
  · exact hold
  · simp [enabled, active] at h

/-- Settles O24: each operation with an enabling condition holds outside it, and the others are always enabled. -/
theorem notEnabledHolds : Obligations.NotEnabledHolds := by
  intro i s h
  cases hb : i.isByteStep with
  | true => exact exec_isByteStep_of_not_enabled hb h
  | false =>
    cases i with
    | openPort => exact execOpenPort_of_tx_ne_idle (of_decide_eq_false h)
    | txSubmit f => exact execTxSubmit_of_tx_ne_idle (of_decide_eq_false h)
    | bufGet p idx => exact (exec_bufGet p idx s).trans (withBuffer_of_not_lt h)
    | bufSet p idx v => exact (exec_bufSet p idx v s).trans (withBuffer_of_not_lt h)
    | bufNext p => exact (exec_bufNext p s).trans (withBuffer_of_not_lt h)
    | bufNext24 p => exact (exec_bufNext24 p s).trans (withBuffer_of_not_lt h)
    | bufHasNext p => exact (exec_bufHasNext p s).trans (withBuffer_of_not_lt h)
    | respTx k r => exact execRespTx_of_not_enabled h
    | txBegin k => exact execTxBegin_of_not_enabled h
    | txEnd r => exact execTxEnd_of_not_enabled h
    | rxSof | rxAck | rxNak | rxCan | rxNoise _ | rxLen _ | rxKind _ | rxCmd _ | rxPay _ | rxChk _ => cases hb
    | _ => cases h

end Sys2Proof.Proofs
end

section
/-! What one operation can do to the state, said once: every answer of `exec` but RESET's is one of the effects below, and
what a step keeps is shown effect by effect. -/

namespace Sys2Proof.Proofs

open Sys2Proof Sys2Proof.Machine

/-- The next states of the operations but RESET, each under the conditions its rule gives. -/
inductive ExecEffect (s : State) : State → Prop where
  /-- the agent holds (00_scope.md R8, log 2) -/
  | hold : ExecEffect s s
  /-- RX_ARRIVE (43_link_io.md R211) -/
  | arrive (bs : List Byte) : ExecEffect s { s with rxq := s.rxq ++ bs }
  /-- a pure function, a statistics read or a cursor fault answers its caller (log 11) -/
  | answer (r : Ret) : ExecEffect s (s.returns r)
  /-- a cursor constructor (40_payload_buffer.md R101 to R103) -/
  | newBuffer (bs : List Byte) : ExecEffect s (s.newBuffer (Buffer.ofBytes bs))
  /-- a cursor operation replaces its Buffer, whose cursor stays in range (R100) -/
  | setBuffer (p : Nat) (b b' : Buffer) (r : Ret) (found : s.bufs[p]? = some b)
      (inRange : b.pos ≤ b.data.length → b'.pos ≤ b'.data.length) :
      ExecEffect s { s with bufs := s.bufs.set p b', ret := r }
  /-- RX_SOF (42_frame_decoder.md R170) -/
  | sof (offer : s.offers Config.sof = true) (free : s.lock = .free) : ExecEffect s { s.consume with st := .wfl }
  /-- RX_ACK, RX_NAK, RX_CAN (R166 to R168): the byte is a whole frame -/
  | single (f : Frame) (b : Byte) (offer : s.offers b = true) (wff : s.st = .wff) (whole : encodeFrame f = [b]) :
      ExecEffect s (completeSingle f s.consume)
  /-- RX_NOISE (R169) -/
  | noise (b : Byte) (offer : s.offers b = true) (wff : s.st = .wff) (plain : noiseByteOk b = true) :
      ExecEffect s (s.consume.countRx .oof)
  /-- RX_LEN on a length too short to assemble (R171) -/
  | shortLength (b : Byte) (offer : s.offers b = true) (wfl : s.st = .wfl) (short : b.toNat < 3) :
      ExecEffect s (s.consume.resync (.malformedLength b))
  /-- RX_LEN on a length in range (R171) -/
  | start (b : Byte) (offer : s.offers b = true) (wfl : s.st = .wfl) (long : 3 ≤ b.toNat)
      (ok : lenFlag s.params b = true) : ExecEffect s (startFrame b s.consume)
  /-- RX_LEN on a length out of range, which is reported and assembled all the same (R171) -/
  | startOutOfRange (b : Byte) (offer : s.offers b = true) (wfl : s.st = .wfl) (long : 3 ≤ b.toNat)
      (bad : lenFlag s.params b = false) :
      ExecEffect s ((startFrame b s.consume).report (.lengthOutOfRange b))
  /-- RX_KIND (R172) -/
  | kind (b : Byte) (offer : s.offers b = true) (rf : s.st = .rf) (count : s.cnt.toNat = 0)
      (inside : s.outsideRules = false) :
      ExecEffect s { s.consume with kind := b, acc := accStep s.acc b, cnt := 0x01#8 }
  /-- RX_CMD (R173) -/
  | cmd (b : Byte) (offer : s.offers b = true) (rf : s.st = .rf) (count : s.cnt.toNat = 1)
      (inside : s.outsideRules = false) :
      ExecEffect s { s.consume with cmd := b, acc := accStep s.acc b, cnt := 0x02#8 }
  /-- RX_PAY (R174) -/
  | pay (b : Byte) (offer : s.offers b = true) (rf : s.st = .rf) (count : 2 ≤ s.cnt.toNat)
      (more : s.cnt.toNat + 2 ≤ s.len.toNat) (inside : s.outsideRules = false) :
      ExecEffect s
        { s.consume with pay := s.pay.write (s.cnt.toNat - 2) b, acc := accStep s.acc b, cnt := s.cnt + 0x01#8 }
  /-- RX_CHK of a frame with a malformed kind (R176) -/
  | badKind (b : Byte) (offer : s.offers b = true) (rf : s.st = .rf) (last : s.cnt.toNat + 1 = s.len.toNat)
      (inside : s.outsideRules = false) (malformed : s.kind ≠ 0x00#8 ∧ s.kind ≠ 0x01#8) :
      ExecEffect s (s.consume.resync (.malformedKind s.kind))
  /-- RX_CHK of a frame whose checksum matches (R177) -/
  | data (k : Kind) (b : Byte) (offer : s.offers b = true) (rf : s.st = .rf) (last : s.cnt.toNat + 1 = s.len.toNat)
      (inside : s.outsideRules = false) (known : s.kind = kindByte k) (chk : b = s.acc) :
      ExecEffect s
        { s.consume with
          ev := s.ev ++ [.frameOut (.data s.len k s.cmd s.payload b) true s.lenOk]
          rxStats := s.rxStats.bump .data
          resp := .respAck
          st := .wff }
  /-- RX_CHK of a frame whose checksum does not match (R177) -/
  | badChecksum (k : Kind) (b : Byte) (offer : s.offers b = true) (rf : s.st = .rf)
      (last : s.cnt.toNat + 1 = s.len.toNat) (inside : s.outsideRules = false) (known : s.kind = kindByte k)
      (chk : b ≠ s.acc) :
      ExecEffect s
        { s.consume with
          ev := s.ev ++ [.frameOut (.data s.len k s.cmd s.payload b) false s.lenOk,
            .report (.checksumMismatch b s.acc)]
          rxStats := s.rxStats.bump .data
          resp := .respNak
          st := .wff }
  /-- a reserved host code (30_encoding.md R83) or a frame that is not admitted (43_link_io.md R204) -/
  | hostReport (r : Report) : ExecEffect s (s.report r)
  /-- OPEN (70_reset_and_hazards.md R272) -/
  | opened (idle : s.tx = .idle) : ExecEffect s { s with st := .wff, resp := .none, tx := .queued .nak [0x15#8] }
  /-- TX_SUBMIT of an admitted frame (43_link_io.md R204) -/
  | submit (f : Frame) (idle : s.tx = .idle) (ok : frameAdmitted s.params f = true) :
      ExecEffect s { s with tx := .queued (completeFrame f) (encodeFrame f) }
  /-- RESP_TX (R202) -/
  | respond (k : Nat) (r : WriteResult) (f : Frame) (pending : s.resp.frame = some f) (free : s.lock = .free) :
      ExecEffect s { (s.flushInput k).sendResult f (encodeFrame f) r with resp := .none }
  /-- TX_BEGIN (R205) -/
  | beginTx (k : Nat) (f : Frame) (w : List Byte) (queued : s.tx = .queued f w) (free : s.lock = .free) :
      ExecEffect s { s.flushInput k with tx := .active f w }
  /-- TX_END (R207) -/
  | endTx (r : WriteResult) (f : Frame) (w : List Byte) (active : s.tx = .active f w) :
      ExecEffect s { s.sendResult f w r with tx := .idle }

/-! Every operation has one of the effects. -/

theorem byteStep_effect {b : Byte} {sel : Bool} {f : State → State} {s t : State} (h : byteStep b sel f s = .next t)
    (take : s.offers b = true → sel = true → s.outsideRules = false → ExecEffect s (f s.consume)) :
    ExecEffect s t := by
  rcases byteStep_cases b sel f s with ⟨_, e⟩ | ⟨_, _, e⟩ | ⟨⟨offer, hsel⟩, inside, e⟩
  · cases e.symm.trans h; exact .hold
  · cases e.symm.trans h
  · cases e.symm.trans h; exact take offer hsel inside

theorem takeLength_effect {b : Byte} {s : State} (offer : s.offers b = true) (wfl : s.st = .wfl) :
    ExecEffect s (takeLength b s.consume) := by
  rcases takeLength_cases b s.consume with ⟨short, e⟩ | ⟨long, ok, e⟩ | ⟨long, bad, e⟩ <;> rw [e]
  · exact .shortLength b offer wfl short
  · exact .start b offer wfl long ok
  · exact .startOutOfRange b offer wfl long bad

theorem completeFrameAt_effect {b : Byte} {s : State} (offer : s.offers b = true) (rf : s.st = .rf)
    (last : s.cnt.toNat + 1 = s.len.toNat) (inside : s.outsideRules = false) :
    ExecEffect s (completeFrameAt b s.consume) := by
  rcases completeFrameAt_cases b s.consume with ⟨malformed, e⟩ | ⟨k, known, e⟩
  · rw [e]; exact .badKind b offer rf last inside malformed
  · rcases completeData_cases k b s.consume with ⟨chk, e'⟩ | ⟨chk, e'⟩ <;> rw [e, e']
    · exact .data k b offer rf last inside known chk
    · exact .badChecksum k b offer rf last inside known chk

theorem exec_isByteStep_effect {i : Instr} {s t : State} (hi : i.isByteStep = true) (h : exec i s = .next t) :
    ExecEffect s t := by
  cases i with
  | rxSof => exact byteStep_effect ((exec_rxSof s).symm.trans h) fun offer sel _ => .sof offer (by simp_all)
  | rxAck =>
    exact byteStep_effect ((exec_rxAck s).symm.trans h) fun offer sel _ => .single .ack _ offer (of_decide_eq_true sel) rfl
  | rxNak =>
    exact byteStep_effect ((exec_rxNak s).symm.trans h) fun offer sel _ => .single .nak _ offer (of_decide_eq_true sel) rfl
  | rxCan =>
    exact byteStep_effect ((exec_rxCan s).symm.trans h) fun offer sel _ => .single .can _ offer (of_decide_eq_true sel) rfl
  | rxNoise b =>
    refine byteStep_effect ((exec_rxNoise b s).symm.trans h) fun offer sel _ => ?_
    obtain ⟨wff, plain⟩ : s.st = .wff ∧ noiseByteOk b = true := by simpa using sel
    exact .noise b offer wff plain
  | rxLen b =>
    exact byteStep_effect ((exec_rxLen b s).symm.trans h) fun offer sel _ =>
      takeLength_effect offer (of_decide_eq_true sel)
  | rxKind b =>
    refine byteStep_effect ((exec_rxKind b s).symm.trans h) fun offer sel inside => ?_
    obtain ⟨rf, count⟩ : s.st = .rf ∧ s.cnt.toNat = 0 := by simpa only [Bool.and_eq_true, decide_eq_true_eq] using sel
    exact .kind b offer rf count inside
  | rxCmd b =>
    refine byteStep_effect ((exec_rxCmd b s).symm.trans h) fun offer sel inside => ?_
    obtain ⟨rf, count⟩ : s.st = .rf ∧ s.cnt.toNat = 1 := by simpa only [Bool.and_eq_true, decide_eq_true_eq] using sel
    exact .cmd b offer rf count inside
  | rxPay b =>
    refine byteStep_effect ((exec_rxPay b s).symm.trans h) fun offer sel inside => ?_
    obtain ⟨⟨rf, count⟩, more⟩ : (s.st = .rf ∧ 2 ≤ s.cnt.toNat) ∧ s.cnt.toNat + 2 ≤ s.len.toNat := by
      simpa only [Bool.and_eq_true, decide_eq_true_eq] using sel
    exact .pay b offer rf count more inside
  | rxChk b =>
    refine byteStep_effect ((exec_rxChk b s).symm.trans h) fun offer sel inside => ?_
    obtain ⟨rf, last⟩ : s.st = .rf ∧ s.cnt.toNat + 1 = s.len.toNat := by
      simpa only [Bool.and_eq_true, decide_eq_true_eq] using sel
    exact completeFrameAt_effect offer rf last inside
  | _ => cases hi

/-- The encoder only answers its caller (41_frame_codec.md R133). -/
theorem encoderReturns_eq_returns (f : Frame) (s : State) : ∃ r, encoderReturns f s = s.returns r := by
  cases f with
  | data l k c p x =>
    simp only [encoderReturns]
    split
    · exact ⟨_, rfl⟩
    · exact ⟨_, rfl⟩
  | _ => exact ⟨_, rfl⟩

theorem execBufFromValues_effect {vs : List Int} {s t : State} (h : execBufFromValues vs s = .next t) :
    ExecEffect s t := by
  unfold execBufFromValues Buffer.ofValues at h
  cases hj : vs.findIdx? (fun v => !fitsByte v) with
  | none => rw [hj] at h; cases h; exact .newBuffer _
  | some j => rw [hj] at h; cases h; exact .answer _

theorem withBuffer_effect {α : Type} {p : Nat} {op : Buffer → Except BufFault (α × Buffer)} {val : α → Ret}
    {s t : State} (h : withBuffer p op val s = .next t)
    (inRange : ∀ b v b', op b = .ok (v, b') → b.pos ≤ b.data.length → b'.pos ≤ b'.data.length) : ExecEffect s t := by
  rcases withBuffer_cases p op val s with ⟨_, e⟩ | ⟨b, v, b', found, ok, e⟩ | ⟨b, x, _, _, e⟩ <;> cases e.symm.trans h
  · exact .hold
  · exact .setBuffer p b b' _ found (inRange b v b' ok)
  · exact .answer _

/-! What a cursor operation that succeeds leaves of its Buffer (40_payload_buffer.md R104 to R107). -/

theorem bufGet_ok {b b' : Buffer} {idx : Nat} {v : Byte} (h : (b.get idx).map (fun v => (v, b)) = .ok (v, b')) :
    b' = b := by
  unfold Buffer.get at h
  split at h <;> cases h
  rfl

theorem bufSet_ok {b b' : Buffer} {idx : Nat} {v : Byte} {u : Unit}
    (h : (b.set idx v).map (fun b' => ((), b')) = .ok (u, b')) : b' = { b with data := b.data.set idx v } := by
  unfold Buffer.set at h
  split at h <;> cases h
  rfl

theorem bufNext_ok {b b' : Buffer} {v : Byte} (h : b.next = .ok (v, b')) :
    b.pos + 1 ≤ b.data.length ∧ b' = { b with pos := b.pos + 1 } := by
  unfold Buffer.next at h
  split at h <;> cases h
  exact ⟨‹_›, rfl⟩

theorem bufNext24_ok {b b' : Buffer} {v : BitVec 24} (h : b.next24 = .ok (v, b')) :
    b.pos + 3 ≤ b.data.length ∧ b' = { b with pos := b.pos + 3 } := by
  unfold Buffer.next24 at h
  split at h <;> cases h
  exact ⟨‹_›, rfl⟩

theorem execTxSubmit_effect {f : Frame} {s t : State} (h : execTxSubmit f s = .next t) : ExecEffect s t := by
  rcases execTxSubmit_cases f s with e | ⟨idle, ok, e⟩ | ⟨_, _, n, e⟩ <;> cases e.symm.trans h
  · exact .hold
  · exact .submit f idle ok
  · exact .hostReport _

theorem execOpenPort_effect {s t : State} (h : execOpenPort s = .next t) : ExecEffect s t := by
  rcases execOpenPort_cases s with ⟨_, e⟩ | ⟨idle, e⟩ <;> cases e.symm.trans h
  · exact .hold
  · exact .opened idle

theorem execRespTx_effect {k : Nat} {r : WriteResult} {s t : State} (h : execRespTx k r s = .next t) :
    ExecEffect s t := by
  rcases execRespTx_cases k r s with e | ⟨f, pending, free, e⟩ <;> cases e.symm.trans h
  · exact .hold
  · exact .respond k r f pending free

theorem execTxBegin_effect {k : Nat} {s t : State} (h : execTxBegin k s = .next t) : ExecEffect s t := by
  rcases execTxBegin_cases k s with e | ⟨f, w, queued, free, e⟩ <;> cases e.symm.trans h
  · exact .hold
  · exact .beginTx k f w queued free

theorem execTxEnd_effect {r : WriteResult} {s t : State} (h : execTxEnd r s = .next t) : ExecEffect s t := by
  rcases execTxEnd_cases r s with e | ⟨f, w, active, e⟩ <;> cases e.symm.trans h
  · exact .hold
  · exact .endTx r f w active

/-- Everything an operation but RESET can do. -/
theorem exec_effect {i : Instr} {s t : State} (hreset : ∀ m, i ≠ .reset m) (h : exec i s = .next t) :
    ExecEffect s t := by
  cases i with
  | rxSof | rxAck | rxNak | rxCan | rxNoise _ | rxLen _ | rxKind _ | rxCmd _ | rxPay _ | rxChk _ =>
    exact exec_isByteStep_effect rfl h
  | encAck | encNak | encCan | encData _ _ _ =>
    obtain ⟨r, e⟩ := encoderReturns_eq_returns _ s
    cases (congrArg Host.Outcome.next e).symm.trans h
    exact .answer r
  | xsum _ _ _ _ | bufopReserved8toF _ | statsRead _ => cases h; exact .answer _
  | nop => cases h; exact .hold
  | reset m => exact absurd rfl (hreset m)
  | openPort => exact execOpenPort_effect h
  | txSubmit f => exact execTxSubmit_effect h
  | hostopReserved4to7 _ | hostopReserved8toF _ => cases h; exact .hostReport _
  | bufFromValues vs => exact execBufFromValues_effect h
  | bufFromBytes _ | bufOfLength _ => cases h; exact .newBuffer _
  | bufGet p idx =>
    exact withBuffer_effect ((exec_bufGet p idx s).symm.trans h) fun b v b' ok hb => bufGet_ok ok ▸ hb
  | bufSet p idx v =>
    refine withBuffer_effect ((exec_bufSet p idx v s).symm.trans h) fun b _ b' ok hb => ?_
    rw [bufSet_ok ok]
    simpa using hb
  | bufNext p =>
    refine withBuffer_effect ((exec_bufNext p s).symm.trans h) fun b v b' ok _ => ?_
    obtain ⟨room, rfl⟩ := bufNext_ok ok
    exact room
  | bufNext24 p =>
    refine withBuffer_effect ((exec_bufNext24 p s).symm.trans h) fun b v b' ok _ => ?_
    obtain ⟨room, rfl⟩ := bufNext24_ok ok
    exact room
  | bufHasNext p =>
    refine withBuffer_effect ((exec_bufHasNext p s).symm.trans h) fun b v b' ok hb => ?_
    cases ok
    exact hb
  | respTx k r => exact execRespTx_effect h
  | txBegin k => exact execTxBegin_effect h
  | txEnd r => exact execTxEnd_effect h
  | rxArrive bs => cases h; exact .arrive bs

/-- Everything an operation can do: RESET's update (70_reset_and_hazards.md R270), or one of the effects. -/
theorem exec_cases {i : Instr} {s t : State} (h : exec i s = .next t) :
    (∃ m, t = (s.wireOut (s.tx.cutShort m)).resetBlock) ∨ ExecEffect s t := by
  cases i with
  | reset m => cases h; exact .inl ⟨m, rfl⟩
  | _ => exact .inr (exec_effect (by simp) h)

end Sys2Proof.Proofs
end

section
/-! What only grows: the output trace, the written bytes and the counters (10_state.md R32, R33, R35), and the lock as a
function of the decoder and the slot (R31). -/

namespace Sys2Proof.Proofs

open Sys2Proof Sys2Proof.Machine

/-! The send sequence, stages 2 to 4 (43_link_io.md R203, R207). -/

theorem ev_prefix_sendResult (s : State) (f : Frame) (w : List Byte) (r : WriteResult) :
    s.ev <+: (s.sendResult f w r).ev := by
  cases r with
  | ok => rw [sendResult_ok]
  | fail m => rw [sendResult_fail]; exact List.prefix_append _ _

theorem txw_prefix_sendResult (s : State) (f : Frame) (w : List Byte) (r : WriteResult) :
    s.txw <+: (s.sendResult f w r).txw := by
  cases r with
  | ok => rw [sendResult_ok]; exact List.prefix_append _ _
  | fail m => rw [sendResult_fail]; exact List.prefix_append _ _

theorem sendResult_rxStats (s : State) (f : Frame) (w : List Byte) (r : WriteResult) :
    (s.sendResult f w r).rxStats = s.rxStats := by
  cases r with
  | ok => rfl
  | fail m => rfl

theorem sendResult_txStats (s : State) (f : Frame) (w : List Byte) (r : WriteResult) :
    (s.sendResult f w r).txStats = s.txStats ∨ (s.sendResult f w r).txStats = s.txStats.bump (ftype f) := by
  cases r with
  | ok => exact .inr rfl
  | fail m => exact .inl rfl

/-! The traces. -/

theorem ev_prefix_of_effect {s t : State} (h : ExecEffect s t) : s.ev <+: t.ev := by
  cases h with
  | single | shortLength | startOutOfRange | badKind | data | badChecksum | hostReport => exact List.prefix_append _ _
  | respond k r f => exact ev_prefix_sendResult (s.flushInput k) f _ r
  | endTx r f w => exact ev_prefix_sendResult s f w r
  | _ => exact List.prefix_rfl

theorem txw_prefix_of_effect {s t : State} (h : ExecEffect s t) : s.txw <+: t.txw := by
  cases h with
  | respond k r f => exact txw_prefix_sendResult (s.flushInput k) f _ r
  | endTx r f w => exact txw_prefix_sendResult s f w r
  | _ => exact List.prefix_rfl

theorem traces_prefix_of_exec {i : Instr} {s t : State} (h : exec i s = .next t) : s.ev <+: t.ev ∧ s.txw <+: t.txw := by
  rcases exec_cases h with ⟨m, rfl⟩ | effect
  · exact ⟨List.prefix_rfl, List.prefix_append _ _⟩
  · exact ⟨ev_prefix_of_effect effect, txw_prefix_of_effect effect⟩

/-- Settles O15: RESET adds to the wire the part of a write in flight that had gone out (70_reset_and_hazards.md R270), the
timeout's abort adds nothing, and every other operation adds at the end. -/
theorem tracesOnlyGrow : Obligations.TracesOnlyGrow := by
  intro s t h
  obtain ⟨r, rfl | ⟨_, _, _, rfl⟩ | ⟨i, hi⟩⟩ := step_cases h
  · exact ⟨List.prefix_rfl, List.prefix_rfl⟩
  · exact ⟨List.prefix_rfl, List.prefix_rfl⟩
  · have grow := traces_prefix_of_exec hi
    exact grow

/-! The counters. -/

theorem rxStats_of_effect {s t : State} (h : ExecEffect s t) :
    t.rxStats = s.rxStats ∨ ∃ c, t.rxStats = s.rxStats.bump c := by
  cases h with
  | single f => exact .inr ⟨ftype f, rfl⟩
  | noise => exact .inr ⟨.oof, rfl⟩
  | data | badChecksum => exact .inr ⟨.data, rfl⟩
  | respond k r f => exact .inl (sendResult_rxStats (s.flushInput k) f _ r)
  | endTx r f w => exact .inl (sendResult_rxStats s f w r)
  | _ => exact .inl rfl

/-- A counter of `tx.*` moves for a frame that is sent, and is the one of its type (43_link_io.md R207). -/
theorem txStats_of_effect {s t : State} (h : ExecEffect s t) :
    t.txStats = s.txStats ∨ ∃ f, t.txStats = s.txStats.bump (ftype f) := by
  cases h with
  | respond k r f => exact (sendResult_txStats (s.flushInput k) f _ r).imp_right fun e => ⟨f, e⟩
  | endTx r f w => exact (sendResult_txStats s f w r).imp_right fun e => ⟨f, e⟩
  | _ => exact .inl rfl

theorem bump_get_bounds (x : Stats) (c d : Stat) : x.get d ≤ (x.bump c).get d ∧ (x.bump c).get d ≤ x.get d + 1 := by
  rw [Stats.bump_get]
  split <;> omega

/-- No frame is counted as out of frame. -/
theorem bump_ftype_oof (x : Stats) (f : Frame) : (x.bump (ftype f)).oof = x.oof := by cases f <;> rfl

theorem txOof_of_effect {s t : State} (h : ExecEffect s t) : t.txStats.oof = s.txStats.oof := by
  obtain e | ⟨f, e⟩ := txStats_of_effect h <;> rw [e]
  exact bump_ftype_oof _ f

/-- Settles O28: an effect leaves each set of counters as it is, or adds one to one counter. -/
theorem countersOnlyGrow : Obligations.CountersOnlyGrow := by
  intro i s t hreset h
  have effect := exec_effect hreset h
  refine ⟨fun c => ?_, fun c => ?_, txOof_of_effect effect⟩
  · obtain e | ⟨d, e⟩ := rxStats_of_effect effect <;> rw [e]
    · exact ⟨le_refl _, Nat.le_succ _⟩
    · exact bump_get_bounds _ d c
  · obtain e | ⟨f, e⟩ := txStats_of_effect effect <;> rw [e]
    · exact ⟨le_refl _, Nat.le_succ _⟩
    · exact bump_get_bounds _ (ftype f) c

/-- Settles O19, by what the lock is in each decoder state and for each slot. -/
theorem lockFollowsDecoderAndSlot : Obligations.LockFollowsDecoderAndSlot := by
  intro s
  refine ⟨fun held => ?_, fun wff f w active => ?_, fun wff quiet => ?_⟩
  · rw [lock_eq_heldRx]
    intro wff
    rw [wff] at held
    simp at held
  · exact (lock_eq_heldTx s).2 ⟨wff, (isActive_eq_true s.tx).2 ⟨f, w, active⟩⟩
  · exact (lock_eq_free s).2 ⟨wff, (isActive_eq_false s.tx).2 quiet⟩

end Sys2Proof.Proofs
end

section
/-! The invariant is kept: first by each kind of update, on the parts of the state that the update touches, then by each
effect of an operation, then by the step. -/

namespace Sys2Proof.Proofs

open Sys2Proof Sys2Proof.Machine

/-! Updates that keep the invariant. -/

/-- The invariant does not speak of the bytes waiting or written, of `rx.*`, or of the model's own fields. -/
theorem inv_of_unread {s t : State} (h : Inv s)
    (ht : t = { s with rxq := t.rxq, txw := t.txw, rxStats := t.rxStats, ret := t.ret, sched := t.sched,
                       draws := t.draws }) : Inv t := by
  rw [ht]
  exact { h with }

/-- A state in WFF with an idle slot has no frame under assembly, in flight or queued. -/
theorem inv_of_wff_idle {s : State} (wff : s.st = .wff) (idle : s.tx = .idle) (payWf : s.pay.wf = true)
    (payBound : ∀ c ∈ s.pay, c.1 < Config.payCap) (txOof : s.txStats.oof = 0)
    (bufCursor : ∀ b ∈ s.bufs, b.pos ≤ b.data.length) (evValid : ∀ e ∈ s.ev, validEvent s.params e) : Inv s where
  inRules rf := by simp [wff] at rf
  accRunning rf := by simp [wff] at rf
  lenOkSet rf := by simp [wff] at rf
  payClear rf := by simp [wff] at rf
  payWf := payWf
  payBound := payBound
  respInWff _ := wff
  lockExclusive busy := absurd wff busy
  txQueued f w queued := by simp [idle] at queued
  txActive f w active := by simp [idle] at active
  txOof := txOof
  bufCursor := bufCursor
  evValid := evValid

/-- Going back to WFF ends the assembly, with any response pending. -/
theorem inv_toWff {s : State} (h : Inv s) (r : Resp) : Inv { s with st := .wff, resp := r } :=
  { h with
    inRules := nofun
    accRunning := nofun
    lenOkSet := nofun
    payClear := nofun
    respInWff := fun _ => rfl
    lockExclusive := fun busy => absurd rfl busy }

theorem inv_toWfl {s : State} (h : Inv s) (resp : s.resp = .none) (quiet : s.tx.isActive = false) :
    Inv { s with st := .wfl } :=
  { h with
    inRules := nofun
    accRunning := nofun
    lenOkSet := nofun
    payClear := nofun
    respInWff := fun pending => absurd resp pending
    lockExclusive := fun _ => quiet }

theorem inv_clearResp {s : State} (h : Inv s) : Inv { s with resp := .none } :=
  { h with respInWff := fun pending => absurd rfl pending }

theorem inv_emits {s : State} (h : Inv s) {l : List Event} (valid : ∀ e ∈ l, validEvent s.params e) :
    Inv { s with ev := s.ev ++ l } :=
  { h with evValid := fun e he => (List.mem_append.1 he).elim (h.evValid e) (valid e) }

theorem inv_report {s : State} (h : Inv s) (r : Report) : Inv (s.report r) :=
  inv_emits h (by simp [validEvent])

theorem inv_resync {s : State} (h : Inv s) (r : Report) : Inv (s.resync r) := inv_toWff (inv_report h r) .respNak

/-- A new slot, which holds no write in flight while a frame is assembled, and a valid frame with its encoding if any. -/
theorem inv_setTx {s : State} (h : Inv s) {x : TxSlot} (exclusive : s.st ≠ .wff → x.isActive = false)
    (holds : ∀ f w, x = .queued f w ∨ x = .active f w → w = encodeFrame f ∧ validSent s.params f) :
    Inv { s with tx := x } :=
  { h with
    lockExclusive := exclusive
    txQueued := fun f w queued => holds f w (.inl queued)
    txActive := fun f w active => holds f w (.inr active) }

theorem inv_idleTx {s : State} (h : Inv s) : Inv { s with tx := .idle } := inv_setTx h (fun _ => rfl) (by simp)

theorem inv_queueTx {s : State} (h : Inv s) {f : Frame} {w : List Byte} (enc : w = encodeFrame f)
    (valid : validSent s.params f) : Inv { s with tx := .queued f w } := by
  refine inv_setTx h (fun _ => rfl) fun g v eq => ?_
  obtain ⟨rfl, rfl⟩ : f = g ∧ w = v := by simpa using eq
  exact ⟨enc, valid⟩

theorem inv_activateTx {s : State} (h : Inv s) {f : Frame} {w : List Byte} (queued : s.tx = .queued f w)
    (wff : s.st = .wff) : Inv { s with tx := .active f w } := by
  refine inv_setTx h (fun busy => absurd wff busy) fun g v eq => ?_
  obtain ⟨rfl, rfl⟩ : f = g ∧ w = v := by simpa using eq
  exact h.txQueued f w queued

theorem inv_setBufs {s : State} (h : Inv s) {bs : List Buffer} (bufCursor : ∀ b ∈ bs, b.pos ≤ b.data.length) :
    Inv { s with bufs := bs } := { h with bufCursor := bufCursor }

theorem inv_newBuffer {s : State} (h : Inv s) (bs : List Byte) : Inv (s.newBuffer (Buffer.ofBytes bs)) := by
  have hbufs : Inv { s with bufs := s.bufs ++ [Buffer.ofBytes bs] } := by
    refine inv_setBufs h fun b hb => ?_
    rcases List.mem_append.1 hb with old | new
    · exact h.bufCursor b old
    · rw [List.mem_singleton.1 new]; exact Nat.zero_le _
  exact inv_of_unread hbufs rfl

/-- Sending moves only the counter of a frame's type, and reports only a failed write (43_link_io.md R207). -/
theorem inv_sendResult {s : State} (h : Inv s) (f : Frame) (w : List Byte) (r : WriteResult) :
    Inv (s.sendResult f w r) := by
  cases r with
  | ok => exact { h with txOof := (bump_ftype_oof s.txStats f).trans h.txOof }
  | fail m => exact inv_report (inv_of_unread h rfl : Inv (s.wireOut (w.take m))) _

theorem inv_resetBlock {s : State} (h : Inv s) : Inv s.resetBlock := by
  obtain ⟨wf, bound, _⟩ := Memory.tabulateFrom_spec (Config.resetPay s.draws) 0 Config.payCap
  refine inv_of_wff_idle rfl rfl wf (fun c hc => ?_) rfl h.bufCursor h.evValid
  simpa using (bound c hc).2

/-! The running checksum (41_frame_codec.md R131). -/

theorem accSoFar_of_cnt_eq_zero {s : State} (h : s.cnt.toNat = 0) : s.accSoFar = accSeed s.len := by
  simp [State.accSoFar, h, accSeed, Config.xsumSeed, Memory.bytes, xorfold]

theorem accSoFar_of_cnt_eq_one {s : State} (h : s.cnt.toNat = 1) : s.accSoFar = accStep (accSeed s.len) s.kind := by
  simp [State.accSoFar, h, accSeed, accStep, Config.xsumSeed, Memory.bytes, xorfold]

theorem accSoFar_of_two_le_cnt {s : State} (h : 2 ≤ s.cnt.toNat) :
    s.accSoFar = xsum s.len s.kind s.cmd (s.pay.bytes (s.cnt.toNat - 2)) := by
  simp [State.accSoFar, xsum, Config.xsumSeed, h, le_trans (by decide : 1 ≤ 2) h]

theorem xsum_nil (len kind cmd : Byte) : xsum len kind cmd [] = accStep (accStep (accSeed len) kind) cmd := by
  simp [xsum, accSeed, accStep, xorfold]

theorem xsum_append_singleton (len kind cmd b : Byte) (p : List Byte) :
    xsum len kind cmd (p ++ [b]) = accStep (xsum len kind cmd p) b := by
  simp [xsum, accStep, xorfold_append, xorfold, BitVec.xor_assoc]

/-- Before the checksum byte, `acc` is the checksum of the frame. -/
theorem acc_eq_xsum_of_inv {s : State} (h : Inv s) (rf : s.st = .rf) (last : s.cnt.toNat + 1 = s.len.toNat) :
    s.acc = xsum s.len s.kind s.cmd s.payload := by
  obtain ⟨long, _⟩ := h.inRules rf
  rw [h.accRunning rf, accSoFar_of_two_le_cnt (by omega), State.payload, show s.cnt.toNat - 2 = s.len.toNat - 3 by omega]

/-! The byte steps that assemble a frame. -/

/-- RX_LEN starts a frame, with nothing taken yet (42_frame_decoder.md R171). -/
theorem inv_startFrame {s : State} (h : Inv s) (resp : s.resp = .none) (quiet : s.tx.isActive = false) {b : Byte}
    (long : 3 ≤ b.toNat) : Inv (startFrame b s) :=
  { h with
    inRules := fun _ => ⟨long, Nat.lt_of_lt_of_le (by decide : (0x00#8).toNat < 3) long⟩
    accRunning := fun _ => (accSoFar_of_cnt_eq_zero (s := startFrame b s) rfl).symm
    lenOkSet := fun _ => rfl
    payClear := fun _ _ _ => rfl
    payWf := Memory.wf_nil
    payBound := nofun
    respInWff := fun pending => absurd resp pending
    lockExclusive := fun _ => quiet }

/-- One more byte of a frame under assembly: what the registers it writes have to meet. -/
theorem inv_advance {s : State} (h : Inv s) {kind cmd acc cnt : Byte} {pay : Memory}
    (inside : cnt.toNat < s.len.toNat)
    (sum : acc = ({ s with kind := kind, cmd := cmd, pay := pay, cnt := cnt } : State).accSoFar)
    (clear : ∀ a, cnt.toNat - 2 ≤ a → pay.read a = 0x00#8) (wf : pay.wf = true)
    (bound : ∀ c ∈ pay, c.1 < Config.payCap) :
    Inv { s with kind := kind, cmd := cmd, pay := pay, acc := acc, cnt := cnt } :=
  { h with
    inRules := fun rf => ⟨(h.inRules rf).1, inside⟩
    accRunning := fun _ => sum
    payClear := fun _ => clear
    payWf := wf
    payBound := bound }

theorem inv_takeKind {s : State} (h : Inv s) (rf : s.st = .rf) (count : s.cnt.toNat = 0) (b : Byte) :
    Inv { s with kind := b, acc := accStep s.acc b, cnt := 0x01#8 } := by
  obtain ⟨long, _⟩ := h.inRules rf
  refine inv_advance h (Nat.lt_of_lt_of_le (by decide) long) ?_ (fun a _ => ?_) h.payWf h.payBound
  · rw [h.accRunning rf, accSoFar_of_cnt_eq_zero count, accSoFar_of_cnt_eq_one rfl]
  · exact h.payClear rf a (by omega)

theorem inv_takeCmd {s : State} (h : Inv s) (rf : s.st = .rf) (count : s.cnt.toNat = 1) (b : Byte) :
    Inv { s with cmd := b, acc := accStep s.acc b, cnt := 0x02#8 } := by
  obtain ⟨long, _⟩ := h.inRules rf
  refine inv_advance h (Nat.lt_of_lt_of_le (by decide) long) ?_ (fun a _ => ?_) h.payWf h.payBound
  · rw [h.accRunning rf, accSoFar_of_cnt_eq_one count, accSoFar_of_two_le_cnt le_rfl]
    exact (xsum_nil s.len s.kind b).symm
  · exact h.payClear rf a (by omega)

theorem inv_takePay {s : State} (h : Inv s) (rf : s.st = .rf) (count : 2 ≤ s.cnt.toNat)
    (more : s.cnt.toNat + 2 ≤ s.len.toNat) (b : Byte) :
    Inv { s with pay := s.pay.write (s.cnt.toNat - 2) b, acc := accStep s.acc b, cnt := s.cnt + 0x01#8 } := by
  have hcnt : (s.cnt + 0x01#8).toNat = s.cnt.toNat + 1 := by bv_omega
  have hidx : s.cnt.toNat + 1 - 2 = s.cnt.toNat - 2 + 1 := by omega
  refine inv_advance h (by omega) ?_ (fun a ha => ?_) (Memory.wf_write _ _ _ h.payWf) fun c hc => ?_
  · rw [h.accRunning rf, accSoFar_of_two_le_cnt count, accSoFar_of_two_le_cnt (by simp only [hcnt]; omega)]
    simp only [hcnt, hidx]
    rw [Memory.bytes_succ, Memory.bytes_write _ _ _ _ h.payWf le_rfl, Memory.read_write _ _ _ h.payWf, if_pos rfl,
      xsum_append_singleton]
  · rw [Memory.read_write _ _ _ h.payWf, if_neg (by omega)]
    exact h.payClear rf a (by omega)
  · rcases Memory.mem_write hc with here | old
    · have := s.len.isLt
      simp only [here, Config.payCap]
      omega
    · exact h.payBound c old

/-! The frames that come out and go out are valid (30_encoding.md R80). -/

/-- RX_CHK reports the assembled frame as it is. -/
theorem validEvent_of_inv {s : State} (h : Inv s) (rf : s.st = .rf) (last : s.cnt.toNat + 1 = s.len.toNat) {k : Kind}
    (known : s.kind = kindByte k) (b : Byte) :
    validEvent s.params (.frameOut (.data s.len k s.cmd s.payload b) (decide (b = s.acc)) s.lenOk) := by
  obtain ⟨long, _⟩ := h.inRules rf
  refine ⟨?_, ?_, h.lenOkSet rf⟩
  · rw [State.payload, Memory.bytes_length]
    omega
  · rw [acc_eq_xsum_of_inv h rf last, known]

/-- A frame of one byte on the wire is no Data frame. -/
theorem validEvent_of_encodeFrame_eq_singleton (ps : Params) {f : Frame} {b : Byte} (h : encodeFrame f = [b]) :
    validEvent ps (.frameOut f true true) := by
  cases f with
  | ack | nak | can => exact ⟨rfl, rfl⟩
  | data l k c p x => simp [encodeFrame, encodeData] at h

theorem encodeFrame_completeFrame (f : Frame) : encodeFrame (completeFrame f) = encodeFrame f := by cases f <;> rfl

theorem validSent_completeFrame {ps : Params} {f : Frame} (h : frameAdmitted ps f = true) :
    validSent ps (completeFrame f) := by
  cases f with
  | ack | nak | can => trivial
  | data l k c p x =>
    obtain ⟨hmin, hmax, fits⟩ := (admitted_iff ps p.length).1 h
    have hlen := lengthByte_toNat fits
    exact ⟨hlen, hlen ▸ hmin, hlen ▸ hmax, rfl⟩

/-! The effects. -/

theorem inv_consume {s : State} (h : Inv s) : Inv s.consume := inv_of_unread h rfl

theorem resp_eq_none_of_offers {s : State} {b : Byte} (h : s.offers b = true) : s.resp = .none := ((offers_iff s b).1 h).2

/-- While a frame is assembled no write is in flight. -/
theorem quiet_of_wfl {s : State} (h : Inv s) (wfl : s.st = .wfl) : s.tx.isActive = false :=
  h.lockExclusive (by simp [wfl])

theorem inv_of_effect {s t : State} (h : Inv s) (effect : ExecEffect s t) : Inv t := by
  cases effect with
  | hold => exact h
  | arrive bs => exact inv_of_unread h rfl
  | answer r => exact inv_of_unread h rfl
  | newBuffer bs => exact inv_newBuffer h bs
  | setBuffer p b b' r found inRange =>
    have hbufs : Inv { s with bufs := s.bufs.set p b' } := by
      refine inv_setBufs h fun d hd => ?_
      rcases List.mem_or_eq_of_mem_set hd with old | rfl
      · exact h.bufCursor d old
      · exact inRange (h.bufCursor b (List.mem_of_getElem? found))
    exact inv_of_unread hbufs rfl
  | sof offer free =>
    have resp := resp_eq_none_of_offers offer
    exact inv_toWfl (inv_consume h) resp ((lock_eq_free s).1 free).2
  | single f b offer wff whole =>
    have hev := inv_emits h (List.forall_mem_singleton.2 (validEvent_of_encodeFrame_eq_singleton s.params whole))
    exact inv_of_unread hev rfl
  | noise => exact inv_of_unread h rfl
  | shortLength => exact inv_resync (inv_consume h) _
  | start b offer wfl long =>
    have resp := resp_eq_none_of_offers offer
    have quiet := quiet_of_wfl h wfl
    exact inv_startFrame (inv_consume h) resp quiet long
  | startOutOfRange b offer wfl long =>
    have resp := resp_eq_none_of_offers offer
    have quiet := quiet_of_wfl h wfl
    exact inv_report (inv_startFrame (inv_consume h) resp quiet long) _
  | kind b offer rf count => exact inv_takeKind (inv_consume h) rf count b
  | cmd b offer rf count => exact inv_takeCmd (inv_consume h) rf count b
  | pay b offer rf count more => exact inv_takePay (inv_consume h) rf count more b
  | badKind => exact inv_resync (inv_consume h) _
  | data k b offer rf last inside known chk =>
    have valid := validEvent_of_inv h rf last known b
    rw [decide_eq_true chk] at valid
    have hev := inv_toWff (inv_emits h (List.forall_mem_singleton.2 valid)) .respAck
    exact inv_of_unread hev rfl
  | badChecksum k b offer rf last inside known chk =>
    have valid := validEvent_of_inv h rf last known b
    rw [decide_eq_false chk] at valid
    have both : ∀ e ∈ [Event.frameOut (.data s.len k s.cmd s.payload b) false s.lenOk,
        .report (.checksumMismatch b s.acc)], validEvent s.params e :=
      List.forall_mem_cons.2 ⟨valid, List.forall_mem_singleton.2 trivial⟩
    exact inv_of_unread (inv_toWff (inv_emits h both) .respNak) rfl
  | hostReport r => exact inv_report h r
  | opened => exact inv_queueTx (inv_toWff h .none) rfl trivial
  | submit f idle ok => exact inv_queueTx h (encodeFrame_completeFrame f).symm (validSent_completeFrame ok)
  | respond k r f =>
    have hflush : Inv (s.flushInput k) := inv_of_unread h rfl
    exact inv_clearResp (inv_sendResult hflush f _ r)
  | beginTx k f w queued free =>
    have hflush : Inv (s.flushInput k) := inv_of_unread h rfl
    exact inv_activateTx hflush queued ((lock_eq_free s).1 free).1
  | endTx r f w => exact inv_idleTx (inv_sendResult h f w r)

theorem exec_keeps_inv {i : Instr} {s t : State} (h : Inv s) (he : exec i s = .next t) : Inv t := by
  rcases exec_cases he with ⟨m, rfl⟩ | effect
  · exact inv_resetBlock (inv_of_unread h rfl)
  · exact inv_of_effect h effect

/-- Settles O8: using up a schedule entry, the timeout's abort (log 8) and every operation keep the invariant. -/
theorem stepKeepsInvariant : Obligations.StepKeepsInvariant := by
  intro s t h hstep
  obtain ⟨r, hcase⟩ := step_cases hstep
  have hsched : Inv { s with sched := r } := inv_of_unread h rfl
  rcases hcase with rfl | ⟨_, _, _, rfl⟩ | ⟨i, hi⟩
  · exact hsched
  · exact inv_of_unread (inv_toWff h _) rfl
  · exact exec_keeps_inv hsched hi

/-- Settles O9: after reset nothing is under assembly, queued, kept or reported. -/
theorem resetMeetsInvariant : Obligations.ResetMeetsInvariant :=
  inv_of_wff_idle rfl rfl Memory.wf_nil nofun rfl nofun nofun

end Sys2Proof.Proofs
end

section
/-! Who writes what (20_memory.md R56): the frame of each kind of operation, as the state it started from with the items it
writes taken from the next one; and the half-duplex promise that nothing goes out while a frame is assembled (R57). -/

namespace Sys2Proof.Proofs

open Sys2Proof Sys2Proof.Machine

/-! The RX agent (42_frame_decoder.md R160 to R177, 43_link_io.md R202). -/

/-- `s` with the items that the decoder writes as `t` has them: its registers, `resp`, `rx.*`, `ev` and `rxq`. -/
def withDecoderItems (s t : State) : State :=
  { s with
    st := t.st
    len := t.len
    cnt := t.cnt
    kind := t.kind
    cmd := t.cmd
    pay := t.pay
    acc := t.acc
    lenOk := t.lenOk
    resp := t.resp
    rxStats := t.rxStats
    ev := t.ev
    rxq := t.rxq }

theorem takeLength_frame (b : Byte) (s : State) : takeLength b s = withDecoderItems s (takeLength b s) := by
  rcases takeLength_cases b s with ⟨_, e⟩ | ⟨_, _, e⟩ | ⟨_, _, e⟩ <;> rw [e] <;> rfl

theorem completeFrameAt_frame (b : Byte) (s : State) :
    completeFrameAt b s = withDecoderItems s (completeFrameAt b s) := by
  rcases completeFrameAt_cases b s with ⟨_, e⟩ | ⟨k, _, e⟩
  · rw [e]; rfl
  · rcases completeData_cases k b s with ⟨_, e'⟩ | ⟨_, e'⟩ <;> rw [e, e'] <;> rfl

/-- A byte step writes no more than what it does with its byte writes: the byte it consumes is an item of the decoder. -/
theorem byteStep_frame {b : Byte} {sel : Bool} {f : State → State} (frame : ∀ u, f u = withDecoderItems u (f u))
    {s t : State} (h : byteStep b sel f s = .next t) : t = withDecoderItems s t := by
  rcases byteStep_cases b sel f s with ⟨_, e⟩ | ⟨_, _, e⟩ | ⟨_, _, e⟩ <;> cases e.symm.trans h
  · rfl
  · exact frame s.consume

theorem exec_isByteStep_frame {i : Instr} {s t : State} (hi : i.isByteStep = true) (h : exec i s = .next t) :
    t = withDecoderItems s t := by
  cases i with
  | rxSof => exact byteStep_frame (fun _ => rfl) ((exec_rxSof s).symm.trans h)
  | rxAck => exact byteStep_frame (fun _ => rfl) ((exec_rxAck s).symm.trans h)
  | rxNak => exact byteStep_frame (fun _ => rfl) ((exec_rxNak s).symm.trans h)
  | rxCan => exact byteStep_frame (fun _ => rfl) ((exec_rxCan s).symm.trans h)
  | rxNoise b => exact byteStep_frame (fun _ => rfl) ((exec_rxNoise b s).symm.trans h)
  | rxLen b => exact byteStep_frame (takeLength_frame b) ((exec_rxLen b s).symm.trans h)
  | rxKind b => exact byteStep_frame (fun _ => rfl) ((exec_rxKind b s).symm.trans h)
  | rxCmd b => exact byteStep_frame (fun _ => rfl) ((exec_rxCmd b s).symm.trans h)
  | rxPay b => exact byteStep_frame (fun _ => rfl) ((exec_rxPay b s).symm.trans h)
  | rxChk b => exact byteStep_frame (completeFrameAt_frame b) ((exec_rxChk b s).symm.trans h)
  | _ => cases hi

/-- Stages 2 to 4 of the send sequence (43_link_io.md R203, R207) write the wire, and count or report. -/
theorem sendResult_frame (s : State) (f : Frame) (w : List Byte) (r : WriteResult) :
    s.sendResult f w r =
      { s with
        txStats := (s.sendResult f w r).txStats
        ev := (s.sendResult f w r).ev
        txw := (s.sendResult f w r).txw } := by
  cases r with
  | ok => rfl
  | fail m => rfl

theorem execRespTx_frame {k : Nat} {r : WriteResult} {s t : State} (h : execRespTx k r s = .next t) :
    t = { s with resp := t.resp, txStats := t.txStats, ev := t.ev, rxq := t.rxq, txw := t.txw } := by
  rcases execRespTx_cases k r s with e | ⟨f, _, _, e⟩ <;> cases e.symm.trans h
  · rfl
  · rw [sendResult_frame]; rfl

/-! The TX agent (43_link_io.md R205, R207). -/

theorem execTxBegin_frame {k : Nat} {s t : State} (h : execTxBegin k s = .next t) :
    t = { s with tx := t.tx, rxq := t.rxq } := by
  rcases execTxBegin_cases k s with e | ⟨f, w, _, _, e⟩ <;> cases e.symm.trans h <;> rfl

theorem execTxEnd_frame {r : WriteResult} {s t : State} (h : execTxEnd r s = .next t) :
    t = { s with tx := t.tx, txStats := t.txStats, ev := t.ev, txw := t.txw } := by
  rcases execTxEnd_cases r s with e | ⟨f, w, _, e⟩ <;> cases e.symm.trans h
  · rfl
  · rw [sendResult_frame]

/-! The host (43_link_io.md R204, 70_reset_and_hazards.md R272, 40_payload_buffer.md R110). -/

theorem execTxSubmit_frame {f : Frame} {s t : State} (h : execTxSubmit f s = .next t) :
    t = { s with tx := t.tx, ev := t.ev } := by
  rcases execTxSubmit_cases f s with e | ⟨_, _, e⟩ | ⟨_, _, n, e⟩ <;> cases e.symm.trans h <;> rfl

theorem execOpenPort_frame {s t : State} (h : execOpenPort s = .next t) :
    t = { s with st := t.st, resp := t.resp, tx := t.tx } := by
  rcases execOpenPort_cases s with ⟨_, e⟩ | ⟨_, e⟩ <;> cases e.symm.trans h <;> rfl

theorem encoderReturns_frame (f : Frame) (s : State) :
    encoderReturns f s = { s with ret := (encoderReturns f s).ret } := by
  obtain ⟨r, e⟩ := encoderReturns_eq_returns f s
  rw [e]
  rfl

theorem execBufFromValues_frame {vs : List Int} {s t : State} (h : execBufFromValues vs s = .next t) :
    t = { s with bufs := t.bufs, ret := t.ret } := by
  unfold execBufFromValues at h
  split at h <;> cases h <;> rfl

theorem withBuffer_frame {α : Type} {p : Nat} {op : Buffer → Except BufFault (α × Buffer)} {val : α → Ret}
    {s t : State} (h : withBuffer p op val s = .next t) : t = { s with bufs := t.bufs, ret := t.ret } := by
  rcases withBuffer_cases p op val s with ⟨_, e⟩ | ⟨_, _, _, _, _, e⟩ | ⟨_, _, _, _, e⟩ <;> cases e.symm.trans h <;> rfl

theorem exec_isCursorOp_frame {i : Instr} {s t : State} (hi : i.isCursorOp = true) (h : exec i s = .next t) :
    t = { s with bufs := t.bufs, ret := t.ret } := by
  cases i with
  | bufFromValues vs => exact execBufFromValues_frame h
  | bufFromBytes _ | bufOfLength _ | bufopReserved8toF _ => cases h; rfl
  | bufGet p idx => exact withBuffer_frame ((exec_bufGet p idx s).symm.trans h)
  | bufSet p idx v => exact withBuffer_frame ((exec_bufSet p idx v s).symm.trans h)
  | bufNext p => exact withBuffer_frame ((exec_bufNext p s).symm.trans h)
  | bufNext24 p => exact withBuffer_frame ((exec_bufNext24 p s).symm.trans h)
  | bufHasNext p => exact withBuffer_frame ((exec_bufHasNext p s).symm.trans h)
  | _ => cases hi

/-- Settles O22: the frame of the operation's kind shows each item it does not write as it was, and R56's table names the
operation for every other item. -/
theorem itemsHaveTheirWriters : Obligations.ItemsHaveTheirWriters := by
  intro i s t h
  cases i with
  | rxSof | rxAck | rxNak | rxCan | rxNoise _ | rxLen _ | rxKind _ | rxCmd _ | rxPay _ | rxChk _ =>
    rw [exec_isByteStep_frame rfl h]
    simp [withDecoderItems, Instr.isByteStep, Instr.agent]
  | bufFromValues _ | bufFromBytes _ | bufOfLength _ | bufGet _ _ | bufSet _ _ _ | bufNext _ | bufNext24 _
  | bufHasNext _ | bufopReserved8toF _ =>
    rw [exec_isCursorOp_frame rfl h]
    simp [Instr.isCursorOp]
  | encAck | encNak | encCan | encData _ _ _ =>
    cases h
    rw [encoderReturns_frame]
    simp
  | xsum _ _ _ _ | nop | hostopReserved4to7 _ | hostopReserved8toF _ | statsRead _ | rxArrive _ | reset _ =>
    cases h
    simp [illegalHostOp]
  | openPort => rw [execOpenPort_frame h]; simp
  | txSubmit f => rw [execTxSubmit_frame h]; simp
  | respTx k r => rw [execRespTx_frame h]; simp [Instr.agent]
  | txBegin k => rw [execTxBegin_frame h]; simp [Instr.agent]
  | txEnd r => rw [execTxEnd_frame h]; simp [Instr.agent]

/-! The half-duplex lock (20_memory.md R57). -/

/-- RESET cuts nothing short unless a write is in flight (70_reset_and_hazards.md R270). -/
theorem cutShort_of_not_active {x : TxSlot} (quiet : x.isActive = false) (m : Nat) : x.cutShort m = [] := by
  cases x with
  | active f w => cases quiet
  | idle => rfl
  | queued f w => rfl

/-- Only a response, the end of a host frame's write and RESET during it put bytes on the wire; the first needs the lock
free and the others need `tx` Active, so none is possible while the decoder holds the lock. -/
theorem txw_eq_of_exec_of_assembly {i : Instr} {s t : State} (assembling : s.st ≠ .wff) (quiet : s.tx.isActive = false)
    (h : exec i s = .next t) : t.txw = s.txw := by
  rcases exec_cases h with ⟨m, rfl⟩ | effect
  · simp [cutShort_of_not_active quiet]
  · cases effect with
    | respond k r f _ free => exact absurd ((lock_eq_free s).1 free).1 assembling
    | endTx r f w active => exact absurd active ((isActive_eq_false s.tx).1 quiet f w)
    | _ => rfl

/-- Settles O18: by the invariant no write is in flight while a frame is under assembly, so no operation writes; and the
timeout's abort (log 8) never does. -/
theorem noWriteDuringAssembly : Obligations.NoWriteDuringAssembly := by
  intro s t h assembling hstep
  obtain ⟨r, rfl | ⟨_, _, _, rfl⟩ | ⟨i, hi⟩⟩ := step_cases hstep
  · rfl
  · rfl
  · exact txw_eq_of_exec_of_assembly (s := { s with sched := r }) assembling (h.lockExclusive assembling) hi

end Sys2Proof.Proofs
end

section
/-! The selection of the next operation (30_encoding.md R76, R83; 42_frame_decoder.md R161): what the decoder answers at
each port, and from it that decoding and encoding agree. -/

namespace Sys2Proof.Proofs

open Sys2Proof

/-! Which phase selects a byte step, as propositions. -/

theorem selectedIn_rxChk_iff (p : Phase) (b : Byte) : (Instr.rxChk b).selectedIn p = true ↔
    p.st = .rf ∧ p.inRules = true ∧ p.cnt.toNat + 1 = p.len.toNat := by
  simp [Instr.selectedIn, and_assoc]

theorem selectedIn_rxKind_iff (p : Phase) (b : Byte) : (Instr.rxKind b).selectedIn p = true ↔
    p.st = .rf ∧ p.inRules = true ∧ p.cnt.toNat = 0 := by
  simp [Instr.selectedIn, and_assoc]

theorem selectedIn_rxCmd_iff (p : Phase) (b : Byte) : (Instr.rxCmd b).selectedIn p = true ↔
    p.st = .rf ∧ p.inRules = true ∧ p.cnt.toNat = 1 := by
  simp [Instr.selectedIn, and_assoc]

theorem selectedIn_rxPay_iff (p : Phase) (b : Byte) : (Instr.rxPay b).selectedIn p = true ↔
    p.st = .rf ∧ p.inRules = true ∧ 2 ≤ p.cnt.toNat ∧ p.cnt.toNat + 2 ≤ p.len.toNat := by
  simp [Instr.selectedIn, and_assoc]

/-- An operation that consumes no byte is selected in every phase. -/
theorem selectedIn_of_not_isByteStep {i : Instr} (h : i.isByteStep = false) (p : Phase) : i.selectedIn p = true := by
  cases i with
  | rxSof | rxAck | rxNak | rxCan | rxNoise _ | rxLen _ | rxKind _ | rxCmd _ | rxPay _ | rxChk _ => cases h
  | _ => rfl

/-! The RX agent's port. -/

theorem decode_onWire (p : Phase) (b : Byte) : decode p (onWire b) = decodeByte p b := rfl

theorem decodeByte_wff {p : Phase} (h : p.st = .wff) (b : Byte) : decodeByte p b = .instr (decodeMarker b) := by
  simp [decodeByte, h]

theorem decodeByte_wfl {p : Phase} (h : p.st = .wfl) (b : Byte) : decodeByte p b = .instr (.rxLen b) := by
  simp [decodeByte, h]

theorem decodeByte_rf {p : Phase} (h : p.st = .rf) (inRules : p.inRules = true) (b : Byte) : decodeByte p b = .instr
    (if p.cnt.toNat + 1 = p.len.toNat then .rxChk b else if p.cnt.toNat = 0 then .rxKind b
      else if p.cnt.toNat = 1 then .rxCmd b else .rxPay b) := by
  simp only [decodeByte, h, inRules, if_true]
  split_ifs <;> rfl

theorem decodeByte_outsideRules {p : Phase} (h : p.st = .rf) (outside : p.inRules = false) (b : Byte) :
    decodeByte p b = .outsideRules := by
  simp [decodeByte, h, outside]

theorem decodeMarker_of_noiseByteOk {b : Byte} (h : noiseByteOk b = true) : decodeMarker b = .rxNoise b := by
  simp only [noiseByteOk, isMarker, Bool.not_eq_true', Bool.or_eq_false_iff, beq_eq_false_iff_ne] at h
  obtain ⟨⟨⟨hsof, hack⟩, hnak⟩, hcan⟩ := h
  simp [decodeMarker, hsof, hack, hnak, hcan]

/-- In WFF a byte is read as a well-formed operation of WFF whose wire byte it is (30_encoding.md R76). -/
theorem decodeMarker_spec (p : Phase) (h : p.st = .wff) (b : Byte) :
    (decodeMarker b).wf = true ∧ (decodeMarker b).selectedIn p = true ∧ encode (decodeMarker b) = onWire b := by
  unfold decodeMarker
  split_ifs with hsof hack hnak hcan
  · exact ⟨rfl, decide_eq_true h, hsof ▸ rfl⟩
  · exact ⟨rfl, decide_eq_true h, hack ▸ rfl⟩
  · exact ⟨rfl, decide_eq_true h, hnak ▸ rfl⟩
  · exact ⟨rfl, decide_eq_true h, hcan ▸ rfl⟩
  · exact ⟨by simp [Instr.wf, noiseByteOk, isMarker, hsof, hack, hnak, hcan], decide_eq_true h, rfl⟩

/-- A well-formed byte step in a phase that selects it is read back from its own wire byte. -/
theorem decode_encode_of_isByteStep {i : Instr} {p : Phase} (byte : i.isByteStep = true) (wf : i.wf = true)
    (sel : i.selectedIn p = true) : decode p (encode i) = .instr i := by
  cases i with
  | rxSof | rxAck | rxNak | rxCan => exact decodeByte_wff (of_decide_eq_true sel) _
  | rxNoise b =>
    exact (decodeByte_wff (of_decide_eq_true sel) b).trans (congrArg Decoded.instr (decodeMarker_of_noiseByteOk wf))
  | rxLen b => exact decodeByte_wfl (of_decide_eq_true sel) b
  | rxChk b =>
    obtain ⟨rf, inRules, last⟩ := (selectedIn_rxChk_iff p b).1 sel
    exact (decodeByte_rf rf inRules b).trans (by rw [if_pos last])
  | rxKind b =>
    obtain ⟨rf, inRules, first⟩ := (selectedIn_rxKind_iff p b).1 sel
    obtain ⟨three, _⟩ := (Machine.inRules_iff p).1 inRules rf
    exact (decodeByte_rf rf inRules b).trans (by rw [if_neg (by omega), if_pos first])
  | rxCmd b =>
    obtain ⟨rf, inRules, second⟩ := (selectedIn_rxCmd_iff p b).1 sel
    obtain ⟨three, _⟩ := (Machine.inRules_iff p).1 inRules rf
    exact (decodeByte_rf rf inRules b).trans (by rw [if_neg (by omega), if_neg (by omega), if_pos second])
  | rxPay b =>
    obtain ⟨rf, inRules, two, room⟩ := (selectedIn_rxPay_iff p b).1 sel
    exact (decodeByte_rf rf inRules b).trans (by rw [if_neg (by omega), if_neg (by omega), if_neg (by omega)])
  | _ => cases byte

/-- What a wire byte is read as is well-formed and selected, and that byte is its encoding. -/
theorem spec_of_decodeByte_eq {p : Phase} {b : Byte} {i : Instr} (h : decodeByte p b = .instr i) :
    i.wf = true ∧ i.selectedIn p = true ∧ encode i = onWire b := by
  cases hst : p.st with
  | wff =>
    obtain rfl := Decoded.instr.inj ((decodeByte_wff hst b).symm.trans h)
    exact decodeMarker_spec p hst b
  | wfl =>
    obtain rfl := Decoded.instr.inj ((decodeByte_wfl hst b).symm.trans h)
    exact ⟨rfl, decide_eq_true hst, rfl⟩
  | rf =>
    cases hin : p.inRules with
    | false => rw [decodeByte_outsideRules hst hin] at h; cases h
    | true =>
      obtain ⟨three, below⟩ := (Machine.inRules_iff p).1 hin hst
      obtain rfl := Decoded.instr.inj ((decodeByte_rf hst hin b).symm.trans h)
      split_ifs with last first second
      · exact ⟨rfl, (selectedIn_rxChk_iff p b).2 ⟨hst, hin, last⟩, rfl⟩
      · exact ⟨rfl, (selectedIn_rxKind_iff p b).2 ⟨hst, hin, first⟩, rfl⟩
      · exact ⟨rfl, (selectedIn_rxCmd_iff p b).2 ⟨hst, hin, second⟩, rfl⟩
      · exact ⟨rfl, (selectedIn_rxPay_iff p b).2 ⟨hst, hin, by omega, by omega⟩, rfl⟩

/-! The reserved codes (30_encoding.md R83): the fixed bits, then the operand's. -/

theorem toNat_code4to7 (low : BitVec 2) : (0b01#2 ++ low).toNat = 4 + low.toNat := by
  rw [BitVec.toNat_append, ← Nat.shiftLeft_add_eq_or_of_lt low.isLt]
  rfl

theorem toNat_code8toF (low : BitVec 3) : (0b1#1 ++ low).toNat = 8 + low.toNat := by
  rw [BitVec.toNat_append, ← Nat.shiftLeft_add_eq_or_of_lt low.isLt]
  rfl

/-- A code above `n` is not `n`: it passes that test of the code tables. -/
theorem code_ne_of_lt {op : BitVec 4} {n : Nat} (h : n < op.toNat) : op ≠ BitVec.ofNat 4 n := by
  rintro rfl
  rw [BitVec.toNat_ofNat] at h
  omega

/-- A host code from 0x4 on is reserved, and its bit 3 tells which operation reports it. -/
theorem decodeHostOp_of_four_le {op : BitVec 4} (h : 4 ≤ op.toNat) (bus : HostBus) : decodeHostOp op bus =
    if op.getLsbD 3 then .hostopReserved8toF (op.setWidth 3) else .hostopReserved4to7 (op.setWidth 2) := by
  simp (disch := omega) only [decodeHostOp, code_ne_of_lt, if_false]

/-- A cursor code from 0x8 on is reserved. -/
theorem decodeBufOp_of_eight_le {op : BitVec 4} (h : 8 ≤ op.toNat) (bus : CursorBus) :
    decodeBufOp op bus = .bufopReserved8toF (op.setWidth 3) := by
  simp (disch := omega) only [decodeBufOp, code_ne_of_lt, if_false]

theorem decodeHostOp_code4to7 (low : BitVec 2) (bus : HostBus) :
    decodeHostOp (0b01#2 ++ low) bus = .hostopReserved4to7 low := by
  have bit : (0b01#2 ++ low).getLsbD 3 = false := by rw [BitVec.getLsbD_append]; rfl
  rw [decodeHostOp_of_four_le (by rw [toNat_code4to7]; omega), bit, BitVec.setWidth_append_eq_right]
  rfl

theorem decodeHostOp_code8toF (low : BitVec 3) (bus : HostBus) :
    decodeHostOp (0b1#1 ++ low) bus = .hostopReserved8toF low := by
  have bit : (0b1#1 ++ low).getLsbD 3 = true := by rw [BitVec.getLsbD_append]; rfl
  rw [decodeHostOp_of_four_le (by rw [toNat_code8toF]; omega), bit, BitVec.setWidth_append_eq_right]
  rfl

theorem decodeBufOp_code8toF (low : BitVec 3) (bus : CursorBus) :
    decodeBufOp (0b1#1 ++ low) bus = .bufopReserved8toF low := by
  rw [decodeBufOp_of_eight_le (by rw [toNat_code8toF]; omega), BitVec.setWidth_append_eq_right]

/-! The ports that take no wire byte. -/

/-- A well-formed operation that consumes no byte is read back from its port in every phase. -/
theorem decode_encode_of_not_isByteStep {i : Instr} (port : i.isByteStep = false) (wf : i.wf = true) (p : Phase) :
    decode p (encode i) = .instr i := by
  cases i with
  | rxSof | rxAck | rxNak | rxCan | rxNoise _ | rxLen _ | rxKind _ | rxCmd _ | rxPay _ | rxChk _ => cases port
  | hostopReserved4to7 low => exact congrArg Decoded.instr (decodeHostOp_code4to7 low {})
  | hostopReserved8toF low => exact congrArg Decoded.instr (decodeHostOp_code8toF low {})
  | bufopReserved8toF low => exact congrArg Decoded.instr (decodeBufOp_code8toF low {})
  | respTx k r =>
    cases r with
    | ok => rfl
    | fail m => exact if_pos (of_decide_eq_true wf)
  | rxArrive bs =>
    cases bs with
    | nil => cases wf
    | cons b bs => rfl
  | _ => rfl

theorem decodeHostOp_wf (op : BitVec 4) (bus : HostBus) :
    (decodeHostOp op bus).wf = true ∧ (decodeHostOp op bus).isByteStep = false := by
  unfold decodeHostOp
  split_ifs <;> exact ⟨rfl, rfl⟩

theorem decodeBufOp_wf (op : BitVec 4) (bus : CursorBus) :
    (decodeBufOp op bus).wf = true ∧ (decodeBufOp op bus).isByteStep = false := by
  unfold decodeBufOp
  split_ifs <;> exact ⟨rfl, rfl⟩

theorem wf_of_decodeFrameType_eq {first : Byte} {bus : FrameBus} {i : Instr} (h : decodeFrameType first bus = .instr i) :
    i.wf = true ∧ i.isByteStep = false := by
  unfold decodeFrameType at h
  split_ifs at h <;> cases h <;> exact ⟨rfl, rfl⟩

/-- What a word is read as: a wire byte's operation, or a well-formed one of the other ports. -/
theorem decode_eq_instr_cases {p : Phase} {w : Fetched} {i : Instr} (h : decode p w = .instr i) :
    (∃ b, w = onWire b ∧ decodeByte p b = .instr i) ∨ i.wf = true ∧ i.isByteStep = false := by
  obtain ⟨m, rx⟩ := w
  cases m with
  | rxByte =>
    cases rx with
    | none => cases h
    | some b => exact .inl ⟨b, rfl, h⟩
  | rxTimeout => cases h
  | respond k r =>
    cases r with
    | ok => cases h; exact .inr ⟨rfl, rfl⟩
    | fail m =>
      simp only [decode] at h
      split_ifs at h with one
      cases h
      exact .inr ⟨decide_eq_true one, rfl⟩
  | arrive bs =>
    cases bs with
    | nil => cases h
    | cons b bs => cases h; exact .inr ⟨rfl, rfl⟩
  | hostCmd op bus => cases h; exact .inr (decodeHostOp_wf op bus)
  | cursor op bus => cases h; exact .inr (decodeBufOp_wf op bus)
  | encoder first bus => exact .inr (wf_of_decodeFrameType_eq h)
  | beginTx _ | endTx _ | checksum _ _ _ _ | readStat _ => cases h; exact .inr ⟨rfl, rfl⟩

/-! The obligations. -/

/-- Settles O1: a byte step is read back from its wire byte in the phase that selects it, every other operation from its
port. -/
theorem decodeEncodeAgree : Obligations.DecodeEncodeAgree := by
  intro i p wf sel
  cases byte : i.isByteStep with
  | true => exact decode_encode_of_isByteStep byte wf sel
  | false => exact decode_encode_of_not_isByteStep byte wf p

/-- Settles O2: by the port the word was read at; that the operation's encoding is read back is then O1. -/
theorem decodedIsWellFormedAndSelected : Obligations.DecodedIsWellFormedAndSelected := by
  intro p w i h
  rcases decode_eq_instr_cases h with ⟨b, rfl, hb⟩ | ⟨wf, port⟩
  · obtain ⟨wf, sel, enc⟩ := spec_of_decodeByte_eq hb
    exact ⟨wf, sel, fun _ => enc, decodeEncodeAgree i p wf sel⟩
  · have sel := selectedIn_of_not_isByteStep port p
    exact ⟨wf, sel, fun byte => by simp [port] at byte, decodeEncodeAgree i p wf sel⟩

/-- Settles O4: in WFL the byte is the length; in RF each clause's registers select its operation, which O1 then reads
back from the byte. -/
theorem laterByteSelectsOperation : Obligations.LaterByteSelectsOperation := by
  refine ⟨fun len cnt b => (decode_onWire _ b).trans (decodeByte_wfl rfl b), ?_, ?_⟩
  · intro len cnt b three below
    have inRules : Phase.inRules { st := .rf, len := len, cnt := cnt } = true :=
      (Machine.inRules_iff _).2 fun _ => ⟨three, below⟩
    refine ⟨fun last => ?_, fun first => ?_, fun second => ?_, fun two room => ?_⟩
    · exact decodeEncodeAgree (.rxChk b) _ rfl ((selectedIn_rxChk_iff _ b).2 ⟨rfl, inRules, by dsimp only; omega⟩)
    · exact decodeEncodeAgree (.rxKind b) _ rfl ((selectedIn_rxKind_iff _ b).2 ⟨rfl, inRules, first⟩)
    · exact decodeEncodeAgree (.rxCmd b) _ rfl ((selectedIn_rxCmd_iff _ b).2 ⟨rfl, inRules, second⟩)
    · exact decodeEncodeAgree (.rxPay b) _ rfl ((selectedIn_rxPay_iff _ b).2 ⟨rfl, inRules, two, by dsimp only; omega⟩)
  · intro len cnt b outside
    refine (decode_onWire _ b).trans (decodeByte_outsideRules rfl (Bool.eq_false_iff.2 fun inRules => ?_) b)
    obtain ⟨three, below⟩ := (Machine.inRules_iff _).1 inRules rfl
    dsimp only at three below
    omega

/-- Settles O3: the marker table of the model is R76's. -/
theorem wffByteSelectsOperation : Obligations.WffByteSelectsOperation := by
  intro len cnt b
  exact (decode_onWire _ b).trans (decodeByte_wff rfl b)

/-- Settles O5, by evaluating the decoder on each word. -/
theorem sampleWordsDecode : Obligations.SampleWordsDecode := ⟨rfl, rfl, rfl, rfl, rfl, rfl, rfl⟩

end Sys2Proof.Proofs
end

section
/-! The codes that only answer or report (30_encoding.md R83): hostop4 0x0 and the reserved codes. -/

namespace Sys2Proof.Proofs

open Sys2Proof Sys2Proof.Machine

theorem exec_nop (s : State) : exec .nop s = .next s := rfl

theorem exec_hostopReserved4to7 (low : BitVec 2) (s : State) :
    exec (.hostopReserved4to7 low) s = .next (s.report (.illegalHostOp (0b01#2 ++ low))) := rfl

theorem exec_hostopReserved8toF (low : BitVec 3) (s : State) :
    exec (.hostopReserved8toF low) s = .next (s.report (.illegalHostOp (0b1#1 ++ low))) := rfl

theorem exec_bufopReserved8toF (low : BitVec 3) (s : State) :
    exec (.bufopReserved8toF low) s = .next (s.returns (.bufFault (.illegalOp (0b1#1 ++ low)))) := rfl

/-- Settles O41. -/
theorem nopChangesNothing : Obligations.NopChangesNothing := exec_nop

/-- Settles O45: the reported code is the fixed bits before the operand's. -/
theorem reservedHostCodesReported : Obligations.ReservedHostCodesReported :=
  ⟨fun s low => ⟨0b01#2 ++ low, toNat_code4to7 low, exec_hostopReserved4to7 low s⟩,
    fun s low => ⟨0b1#1 ++ low, toNat_code8toF low, exec_hostopReserved8toF low s⟩⟩

/-- Settles O53: the refused code is the fixed bit before the operand's. -/
theorem reservedBufCodesRefused : Obligations.ReservedBufCodesRefused :=
  fun s low => ⟨0b1#1 ++ low, toNat_code8toF low, exec_bufopReserved8toF low s⟩

end Sys2Proof.Proofs
end

section
/-! The payload cursor (40_payload_buffer.md R101 to R110): what each operation makes of its Buffer, and what becomes of
that in the state. -/

namespace Sys2Proof.Proofs

open Sys2Proof Sys2Proof.Machine

/-! The operation on a Buffer that is there, by the result on the Buffer (40_payload_buffer.md R100). -/

section
variable {α : Type} {p : Nat} {op : Buffer → Except BufFault (α × Buffer)} {val : α → Ret} {s : State} {b : Buffer}

theorem withBuffer_of_ok {v : α} {b' : Buffer} (found : s.bufs[p]? = some b) (ok : op b = .ok (v, b')) :
    withBuffer p op val s = .next { s with bufs := s.bufs.set p b', ret := val v } := by
  simp only [withBuffer, found, ok]
  rfl

/-- An operation that leaves its Buffer as it was changes only what is returned. -/
theorem withBuffer_of_ok_self {v : α} (found : s.bufs[p]? = some b) (ok : op b = .ok (v, b)) :
    withBuffer p op val s = .next { s with ret := val v } := by
  obtain ⟨hp, rfl⟩ := List.getElem?_eq_some_iff.1 found
  rw [withBuffer_of_ok found ok, List.set_getElem_self hp]

theorem withBuffer_of_error {e : BufFault} (found : s.bufs[p]? = some b) (error : op b = .error e) :
    withBuffer p op val s = .next { s with ret := .bufFault e } := by
  simp only [withBuffer, found, error]
  rfl

end

/-- Where the values of an operation are no faults, a fault it returns is its Buffer's, and it left the Buffers alone. -/
theorem withBuffer_fault_keeps_bufs {α : Type} {val : α → Ret} (noFault : ∀ v e, val v ≠ .bufFault e) (p : Nat)
    (op : Buffer → Except BufFault (α × Buffer)) (s : State) :
    ∃ t, withBuffer p op val s = .next t ∧ ∀ e, t.ret = .bufFault e → t.bufs = s.bufs := by
  rcases withBuffer_cases p op val s with ⟨_, hold⟩ | ⟨_, v, _, _, _, done⟩ | ⟨_, _, _, _, fault⟩
  · exact ⟨_, hold, fun _ _ => rfl⟩
  · exact ⟨_, done, fun e he => absurd he (noFault v e)⟩
  · exact ⟨_, fault, fun _ _ => rfl⟩

/-! Reading bytes out of a Buffer: `MemRead` of one byte and of three, big-endian (20_memory.md R52, R53). -/

theorem memRead_one {l : List Byte} {i : Nat} (h : i < l.length) : memRead l i 1 = l[i].toNat := by
  rw [memRead, List.drop_eq_getElem_cons h]
  simp only [List.take_succ_cons, List.take_zero, beNat, List.foldl_cons, List.foldl_nil]
  omega

theorem memRead_three {l : List Byte} {i : Nat} (h : i + 2 < l.length) :
    memRead l i 3 = l[i].toNat * 65536 + l[i + 1].toNat * 256 + l[i + 2].toNat := by
  rw [memRead, List.drop_eq_getElem_cons (by omega), List.drop_eq_getElem_cons (by omega), List.drop_eq_getElem_cons h]
  simp only [List.take_succ_cons, List.take_zero, beNat, List.foldl_cons, List.foldl_nil]
  omega

/-! The operations as functions on a Buffer, within their bounds and outside them (R104 to R107). -/

section
variable {b : Buffer} {i : Nat}

theorem bufGet_of_lt (h : i < b.data.length) : b.get i = .ok b.data[i] := by simp [Buffer.get, h]

theorem bufGet_of_le (h : b.data.length ≤ i) : b.get i = .error (.index i) := if_neg h.not_gt

theorem bufSet_of_lt (h : i < b.data.length) (v : Byte) : b.set i v = .ok { b with data := b.data.set i v } := if_pos h

theorem bufSet_of_le (h : b.data.length ≤ i) (v : Byte) : b.set i v = .error (.index i) := if_neg h.not_gt

theorem bufNext_of_lt (h : b.pos < b.data.length) : b.next = .ok (b.data[b.pos], { b with pos := b.pos + 1 }) := by
  simp [Buffer.next, h, memRead_one h]

theorem bufNext_of_le (h : b.data.length ≤ b.pos) : b.next = .error (.underflow b.pos) := if_neg h.not_gt

theorem bufNext24_of_le (h : b.pos + 3 ≤ b.data.length) :
    b.next24 = .ok (BitVec.ofNat 24 (memRead b.data b.pos 3), { b with pos := b.pos + 3 }) := if_pos h

theorem bufNext24_of_lt (h : b.data.length < b.pos + 3) : b.next24 = .error (.underflow b.pos) := if_neg h.not_ge

end

/-! The constructors (R101 to R103). -/

theorem fitsByte_iff (v : Int) : fitsByte v = true ↔ 0 ≤ v ∧ v ≤ 255 := by simp [fitsByte]

theorem toNat_ofInt_of_fits {v : Int} (h : 0 ≤ v ∧ v ≤ 255) : ((BitVec.ofInt 8 v).toNat : Int) = v := by
  rw [BitVec.toNat_ofInt]
  omega

theorem map_toNat_ofInt_of_fits {vs : List Int} (h : ∀ v ∈ vs, 0 ≤ v ∧ v ≤ 255) :
    (vs.map (BitVec.ofInt 8)).map (fun b => (b.toNat : Int)) = vs := by
  rw [List.map_map]
  exact (List.map_congr_left fun v hv => toNat_ofInt_of_fits (h v hv)).trans (List.map_id' vs)

theorem ofValues_of_fits {vs : List Int} (h : ∀ v ∈ vs, 0 ≤ v ∧ v ≤ 255) :
    Buffer.ofValues vs = .ok (Buffer.ofBytes (vs.map (BitVec.ofInt 8))) := by
  have none : vs.findIdx? (fun v => !fitsByte v) = none :=
    List.findIdx?_eq_none_iff.2 fun v hv => by simp [(fitsByte_iff v).2 (h v hv)]
  simp [Buffer.ofValues, none]

theorem ofValues_of_first_misfit {vs : List Int} {j : Nat} {v : Int} (at_j : vs[j]? = some v) (misfit : v < 0 ∨ 255 < v)
    (before : ∀ i u, i < j → vs[i]? = some u → 0 ≤ u ∧ u ≤ 255) : Buffer.ofValues vs = .error (.value j) := by
  obtain ⟨hj, rfl⟩ := List.getElem?_eq_some_iff.1 at_j
  have first : vs.findIdx? (fun v => !fitsByte v) = some j := by
    refine List.findIdx?_eq_some_iff_getElem.2 ⟨hj, ?_, fun i hi => ?_⟩
    · simp only [Bool.not_eq_true', Bool.eq_false_iff, ne_eq, fitsByte_iff]
      omega
    · simp [(fitsByte_iff _).2 (before i _ hi (List.getElem?_eq_getElem (hi.trans hj)))]
  simp [Buffer.ofValues, first]

theorem exec_bufFromValues_of_ok {vs : List Int} {b : Buffer} (ok : Buffer.ofValues vs = .ok b) (s : State) :
    exec (.bufFromValues vs) s = .next (s.newBuffer b) := by
  simp only [exec, execBufFromValues, ok]

theorem exec_bufFromValues_of_error {vs : List Int} {e : BufFault} (error : Buffer.ofValues vs = .error e) (s : State) :
    exec (.bufFromValues vs) s = .next (s.returns (.bufFault e)) := by
  simp only [exec, execBufFromValues, error]

theorem exec_bufFromBytes (bs : List Byte) (s : State) :
    exec (.bufFromBytes bs) s = .next (s.newBuffer (Buffer.ofBytes bs)) := rfl

theorem exec_bufOfLength (n : Nat) (s : State) : exec (.bufOfLength n) s = .next (s.newBuffer (Buffer.zeros n)) := rfl

/-! The obligations. -/

/-- Every cursor operation completes, and where it returns a fault it left the Buffers alone: a constructor's fault comes
before its Buffer, and the others fault as the shared operation does. -/
theorem exec_isCursorOp_fault_keeps_bufs {i : Instr} (hi : i.isCursorOp = true) (s : State) :
    ∃ t, exec i s = .next t ∧ ∀ e, t.ret = .bufFault e → t.bufs = s.bufs := by
  cases i with
  | bufFromValues vs =>
    cases values : Buffer.ofValues vs with
    | ok b => exact ⟨_, exec_bufFromValues_of_ok values s, nofun⟩
    | error e => exact ⟨_, exec_bufFromValues_of_error values s, fun _ _ => rfl⟩
  | bufFromBytes bs => exact ⟨_, exec_bufFromBytes bs s, nofun⟩
  | bufOfLength n => exact ⟨_, exec_bufOfLength n s, nofun⟩
  | bufGet p idx => rw [exec_bufGet]; exact withBuffer_fault_keeps_bufs nofun _ _ s
  | bufSet p idx v => rw [exec_bufSet]; exact withBuffer_fault_keeps_bufs nofun _ _ s
  | bufNext p => rw [exec_bufNext]; exact withBuffer_fault_keeps_bufs nofun _ _ s
  | bufNext24 p => rw [exec_bufNext24]; exact withBuffer_fault_keeps_bufs nofun _ _ s
  | bufHasNext p => rw [exec_bufHasNext]; exact withBuffer_fault_keeps_bufs nofun _ _ s
  | bufopReserved8toF low => exact ⟨_, exec_bufopReserved8toF low s, fun _ _ => rfl⟩
  | _ => cases hi

/-- Settles O23: the frame of the cursor operations, with their faults. -/
theorem cursorOpsTouchOnlyBuffers : Obligations.CursorOpsTouchOnlyBuffers := by
  intro i s hi
  obtain ⟨t, next, fault⟩ := exec_isCursorOp_fault_keeps_bufs hi s
  exact ⟨t, next, exec_isCursorOp_frame hi next, fault⟩

/-- Settles O46: the search for a misfit finds none, or the first. -/
theorem bufFromValuesBuilds : Obligations.BufFromValuesBuilds := by
  refine fun s vs => ⟨fun fits => ?_, fun j v at_j misfit before => ?_⟩
  · exact ⟨_, map_toNat_ofInt_of_fits fits, exec_bufFromValues_of_ok (ofValues_of_fits fits) s⟩
  · exact exec_bufFromValues_of_error (ofValues_of_first_misfit at_j misfit before) s

/-- Settles O51: three bytes make less than 2^24, so the 24 bits returned lose nothing of them. -/
theorem bufNext24Reads : Obligations.BufNext24Reads := by
  refine fun s p b found => ⟨fun room => ?_, fun short => ?_⟩
  · have value := memRead_three (l := b.data) (i := b.pos) (by omega)
    refine ⟨b.data[b.pos], b.data[b.pos + 1], b.data[b.pos + 2], BitVec.ofNat 24 (memRead b.data b.pos 3),
      List.getElem?_eq_getElem _, List.getElem?_eq_getElem _, List.getElem?_eq_getElem _, ?_,
      (exec_bufNext24 p s).trans (withBuffer_of_ok found (bufNext24_of_le room))⟩
    rw [value, BitVec.toNat_ofNat]
    omega
  · exact (exec_bufNext24 p s).trans (withBuffer_of_error found (bufNext24_of_lt short))

/-- Settles O47. -/
theorem bufConstructorsBuild : Obligations.BufConstructorsBuild :=
  ⟨fun s bs => exec_bufFromBytes bs s, fun s n => exec_bufOfLength n s⟩

/-- Settles O48: the Buffer goes back as it was. -/
theorem bufGetReads : Obligations.BufGetReads := by
  refine fun s p i b found => ⟨fun inside => ?_, fun outside => ?_⟩
  · exact ⟨b.data[i], List.getElem?_eq_getElem inside,
      (exec_bufGet p i s).trans (withBuffer_of_ok_self found (by rw [bufGet_of_lt inside]; rfl))⟩
  · exact (exec_bufGet p i s).trans (withBuffer_of_error found (by rw [bufGet_of_le outside]; rfl))

/-- Settles O49: the new data is the old with one element set. -/
theorem bufSetWrites : Obligations.BufSetWrites := by
  refine fun s p i v b found => ⟨fun inside => ?_, fun outside => ?_⟩
  · refine ⟨b.data.set i v, List.length_set, fun a _ => ?_,
      (exec_bufSet p i v s).trans (withBuffer_of_ok found (by rw [bufSet_of_lt inside]; rfl))⟩
    simp only [List.getElem?_set, inside, if_true, eq_comm]
  · exact (exec_bufSet p i v s).trans (withBuffer_of_error found (by rw [bufSet_of_le outside]; rfl))

/-- Settles O50. -/
theorem bufNextReads : Obligations.BufNextReads := by
  refine fun s p b found => ⟨fun room => ?_, fun atEnd => ?_⟩
  · exact ⟨b.data[b.pos], List.getElem?_eq_getElem room,
      (exec_bufNext p s).trans (withBuffer_of_ok found (bufNext_of_lt room))⟩
  · exact (exec_bufNext p s).trans (withBuffer_of_error found (bufNext_of_le atEnd))

/-- Settles O52: the Buffer goes back as it was. -/
theorem bufHasNextTells : Obligations.BufHasNextTells :=
  fun s p _ found => (exec_bufHasNext p s).trans (withBuffer_of_ok_self found rfl)

end Sys2Proof.Proofs
end

section
/-! The frame codec's functions (41_frame_codec.md R130 to R139): the checksum, and what the pure functions answer. -/

namespace Sys2Proof.Proofs

open Sys2Proof Sys2Proof.Machine

/-! The checksum (R130 to R132). -/

/-- The XOR from the length byte to the checksum byte `b` compares `b` with the checksum, up to the seed. -/
theorem xorfold_fields (len kind cmd b : Byte) (p : List Byte) :
    xorfold (len :: kind :: cmd :: (p ++ [b])) = 0xFF#8 ^^^ (b ^^^ xsum len kind cmd p) :=
  calc xorfold (len :: kind :: cmd :: (p ++ [b]))
      = len ^^^ (kind ^^^ (cmd ^^^ (xorfold p ^^^ b))) := by simp [xorfold, xorfold_append]
    _ = 0xFF#8 ^^^ (0xFF#8 ^^^ (len ^^^ (kind ^^^ (cmd ^^^ (xorfold p ^^^ b))))) := (xor_cancel_left _ _).symm
    _ = 0xFF#8 ^^^ (b ^^^ xsum len kind cmd p) := by rw [xsum, Config.xsumSeed]; ac_rfl

/-- Settles O13. -/
theorem checksumSecondForm : Obligations.ChecksumSecondForm := by
  intro len kind cmd b p
  rw [xorfold_fields, xor_left_eq_self_iff]
  exact BitVec.xor_eq_zero_iff.symm

/-- Two equal bytes next to each other cancel. -/
theorem xorfold_cancel (b : Byte) (q : List Byte) : xorfold (b :: b :: q) = xorfold q :=
  xor_cancel_left b (xorfold q)

/-- Settles O14: the payload enters the checksum through `xorfold` only. -/
theorem checksumOrderIndependent : Obligations.ChecksumOrderIndependent := by
  refine ⟨fun len kind cmd p q perm => ?_, fun len kind cmd b p q => ?_, fun len kind cmd => xsum_nil len kind cmd⟩
  · rw [xsum, xsum, xorfold_perm perm]
  · rw [xsum, xsum, xorfold_append, xorfold_append, xorfold_cancel]

/-- Settles O11: the invariant's running checksum, once the payload is in. -/
theorem runningChecksumIsXsum : Obligations.RunningChecksumIsXsum :=
  fun _ inv rf last => acc_eq_xsum_of_inv inv rf last

/-! What the pure functions answer (R130, R133 to R138). -/

theorem exec_encAck (s : State) : exec .encAck s = .next (s.returns (.bytes [Config.ack])) := rfl

theorem exec_encNak (s : State) : exec .encNak s = .next (s.returns (.bytes [Config.nak])) := rfl

theorem exec_encCan (s : State) : exec .encCan s = .next (s.returns (.bytes [Config.can])) := rfl

theorem exec_xsum (len kind cmd : Byte) (p : List Byte) (s : State) :
    exec (.xsum len kind cmd p) s = .next (s.returns (.byte (xsum len kind cmd p))) := rfl

theorem exec_encData_of_admitted {s : State} {p : List Byte} (ok : admitted s.params p.length = true) (k : Kind)
    (c : Byte) : exec (.encData k c p) s = .next (s.returns (.bytes (encodeData k c p))) :=
  congrArg Host.Outcome.next (if_pos ok)

theorem exec_encData_of_not_admitted {s : State} {p : List Byte} (bad : ¬admitted s.params p.length = true) (k : Kind)
    (c : Byte) : exec (.encData k c p) s = .next (s.returns (.notEncoded (p.length + 3))) :=
  congrArg Host.Outcome.next (if_neg bad)

/-- Settles O38. -/
theorem encSingleByteFrames : Obligations.EncSingleByteFrames :=
  fun s => ⟨exec_encAck s, exec_encNak s, exec_encCan s⟩

/-- Settles O40. -/
theorem xsumReturnsChecksum : Obligations.XsumReturnsChecksum :=
  fun s len kind cmd p => exec_xsum len kind cmd p s

/-- Settles O39: an admitted length fits the length byte, so the byte says it. -/
theorem encDataBytes : Obligations.EncDataBytes := by
  refine fun s k c p => ⟨fun ok => ?_, fun bad => ?_⟩
  · obtain ⟨_, _, fits⟩ := id ok
    have encoded := exec_encData_of_admitted ((admitted_iff s.params p.length).2 ok) k c
    exact ⟨lengthByte p, kindByte k, lengthByte_toNat fits, by cases k <;> rfl, encoded⟩
  · exact exec_encData_of_not_admitted (mt (admitted_iff s.params p.length).1 bad) k c

end Sys2Proof.Proofs
end

section
/-! The round-trip law (41_frame_codec.md R141): the decoder takes the encoder's bytes one byte step at a time, and what
each step makes of the state is put together along the bytes of the frame. -/

namespace Sys2Proof.Proofs

open Sys2Proof Sys2Proof.Machine

/-! Runs of the machine. -/

theorem run_succ {M : Host.Core} {s t : M.State} (h : M.step s = .next t) (n : Nat) : M.run (n + 1) s = M.run n t := by
  rw [Host.Core.run, h]

theorem run_add {M : Host.Core} {s t : M.State} {m : Nat} (h : M.run m s = .next t) (n : Nat) :
    M.run (m + n) s = M.run n t := by
  induction m generalizing s with
  | zero => cases h; rw [Nat.zero_add]
  | succ m ih =>
    rw [Nat.succ_add]
    cases hs : M.step s with
    | next u => rw [run_succ hs] at h ⊢; exact ih h
    | fault r => rw [Host.Core.run, hs] at h; cases h
    | refused r => rw [Host.Core.run, hs] at h; cases h

/-! Reading bytes. -/

/-- The state with `bs` waiting in `rxq` and the schedule `l`. -/
def fed (s : State) (bs : List Byte) (l : List Move) : State := { s with rxq := bs, sched := l }

theorem eq_fed {s : State} {bs : List Byte} {l : List Move} (queue : s.rxq = bs) (sched : s.sched = l) :
    s = fed s bs l := by
  subst queue sched
  rfl

/-- With the bytes `bs` first in `rxq` and a byte step scheduled for each, the RX agent takes them all and makes `t` of
`s`, whatever waits behind them. -/
def Reads (s : State) (bs : List Byte) (t : State) : Prop :=
  ∀ (q : List Byte) (rest : List Move),
    Sys2Proof.core.run bs.length (fed s (bs ++ q) (List.replicate bs.length .rxByte ++ rest)) = .next (fed t q rest)

theorem reads_nil (s : State) : Reads s [] s := fun _ _ => rfl

theorem reads_append {s t u : State} {bs cs : List Byte} (first : Reads s bs t) (second : Reads t cs u) :
    Reads s (bs ++ cs) u := by
  intro q rest
  rw [List.length_append, List.append_assoc, List.replicate_add, List.append_assoc, run_add (first _ _)]
  exact second q rest

/-- A byte step is selected on registers inside the rules only (42_frame_decoder.md R161). -/
theorem inRules_of_selectedIn {i : Instr} {p : Phase} (byte : i.isByteStep = true) (sel : i.selectedIn p = true) :
    p.inRules = true := by
  have notRf {st : DecState} (h : p.st = st) (ne : st ≠ .rf) : p.inRules = true :=
    (inRules_iff p).2 fun rf => absurd (h.symm.trans rf) ne
  cases i with
  | rxSof | rxAck | rxNak | rxCan | rxNoise _ | rxLen _ => exact notRf (of_decide_eq_true sel) (by decide)
  | rxKind b => obtain ⟨_, inRules, _⟩ := (selectedIn_rxKind_iff p b).1 sel; exact inRules
  | rxCmd b => obtain ⟨_, inRules, _⟩ := (selectedIn_rxCmd_iff p b).1 sel; exact inRules
  | rxPay b => obtain ⟨_, inRules, _⟩ := (selectedIn_rxPay_iff p b).1 sel; exact inRules
  | rxChk b => obtain ⟨_, inRules, _⟩ := (selectedIn_rxChk_iff p b).1 sel; exact inRules
  | _ => cases byte

/-- One byte is read by the operation it selects, which is the byte step with the guard `sel` and the effect `f`. -/
theorem reads_byte (i : Instr) {s t : State} {b : Byte} {sel : State → Bool} {f : State → State}
    (resp : s.resp = .none) (byte : i.isByteStep = true) (wf : i.wf = true) (word : encode i = onWire b)
    (selected : i.selectedIn s.phase = true) (runs : ∀ u, exec i u = byteStep b (sel u) f u)
    (guard : ∀ q l, sel (fed s q l) = true) (effect : ∀ q l, f (fed s q l) = fed t q l) : Reads s [b] t := by
  intro q rest
  have decoded : decodeByte s.phase b = .instr i := by
    rw [← decode_onWire, ← word]
    exact decode_encode_of_isByteStep byte wf selected
  have inside := (inRules_iff s.phase).1 (inRules_of_selectedIn byte selected)
  have executed : exec i (fed s (b :: q) rest) = .next (f (fed s q rest)) :=
    (runs _).trans (byteStep_next (s := fed s (b :: q) rest) rfl resp (guard _ _) inside)
  have turn : takeTurn .rxByte (fed s (b :: q) rest) = .next (fed t q rest) := by
    rw [takeTurn_rxByte (s := fed s (b :: q) rest) rfl resp, ← effect, ← executed]
    exact congrArg (runDecoded · _) decoded
  exact run_succ (M := Sys2Proof.core) ((step_cons rfl).trans turn) 0

/-! The bytes of a frame, in the order they come (42_frame_decoder.md R166 to R177). -/

/-- RX_ACK, RX_NAK, RX_CAN: the byte is a whole frame. -/
theorem reads_single {s : State} {f : Frame} (single : f = .ack ∨ f = .nak ∨ f = .can) (wff : s.st = .wff)
    (resp : s.resp = .none) : Reads s (encodeFrame f) (completeSingle f s) := by
  have selected := decide_eq_true wff
  rcases single with rfl | rfl | rfl
  · exact reads_byte .rxAck resp rfl rfl rfl selected exec_rxAck (fun _ _ => selected) fun _ _ => rfl
  · exact reads_byte .rxNak resp rfl rfl rfl selected exec_rxNak (fun _ _ => selected) fun _ _ => rfl
  · exact reads_byte .rxCan resp rfl rfl rfl selected exec_rxCan (fun _ _ => selected) fun _ _ => rfl

theorem reads_sof {s : State} (free : s.lock = .free) (resp : s.resp = .none) :
    Reads s [Config.sof] { s with st := .wfl } := by
  obtain ⟨wff, _⟩ := (lock_eq_free s).1 free
  have guard : (decide (s.st = .wff) && decide (s.lock = .free)) = true := by simp [wff, free]
  exact reads_byte .rxSof resp rfl rfl rfl (decide_eq_true wff) exec_rxSof (fun _ _ => guard) fun _ _ => rfl

/-- What RX_LEN reports of a length it assembles: nothing, or that it is out of range (R171). -/
def lengthReports (ps : Params) (b : Byte) : List Event :=
  if lenFlag ps b then [] else [.report (.lengthOutOfRange b)]

theorem takeLength_of_three_le {b : Byte} (long : 3 ≤ b.toNat) (s : State) :
    takeLength b s = { startFrame b s with ev := s.ev ++ lengthReports s.params b } := by
  rcases takeLength_cases b s with ⟨short, _⟩ | ⟨_, ok, e⟩ | ⟨_, bad, e⟩
  · omega
  · simp [e, lengthReports, ok, startFrame]
  · simp [e, lengthReports, bad, startFrame, State.report, State.emit]

theorem reads_length {s : State} (wfl : s.st = .wfl) (resp : s.resp = .none) {b : Byte} (long : 3 ≤ b.toNat) :
    Reads s [b] { startFrame b s with ev := s.ev ++ lengthReports s.params b } :=
  reads_byte (.rxLen b) resp rfl rfl rfl (decide_eq_true wfl) (exec_rxLen b) (fun _ _ => decide_eq_true wfl)
    fun _ _ => takeLength_of_three_le long _

theorem inRules_of_cnt_lt {s : State} (long : 3 ≤ s.len.toNat) (inside : s.cnt.toNat < s.len.toNat) :
    s.phase.inRules = true := (inRules_iff s.phase).2 fun _ => ⟨long, inside⟩

section
variable {s : State} (rf : s.st = .rf) (resp : s.resp = .none) (long : 3 ≤ s.len.toNat)
include rf resp long

theorem reads_kind (count : s.cnt.toNat = 0) (b : Byte) :
    Reads s [b] { s with kind := b, acc := accStep s.acc b, cnt := 0x01#8 } := by
  have selected := (selectedIn_rxKind_iff s.phase b).2 ⟨rf, inRules_of_cnt_lt long (by omega), count⟩
  have guard : (decide (s.st = .rf) && decide (s.cnt.toNat = 0)) = true := by simp [rf, count]
  exact reads_byte _ resp rfl rfl rfl selected (exec_rxKind b) (fun _ _ => guard) fun _ _ => rfl

theorem reads_cmd (count : s.cnt.toNat = 1) (b : Byte) :
    Reads s [b] { s with cmd := b, acc := accStep s.acc b, cnt := 0x02#8 } := by
  have selected := (selectedIn_rxCmd_iff s.phase b).2 ⟨rf, inRules_of_cnt_lt long (by omega), count⟩
  have guard : (decide (s.st = .rf) && decide (s.cnt.toNat = 1)) = true := by simp [rf, count]
  exact reads_byte _ resp rfl rfl rfl selected (exec_rxCmd b) (fun _ _ => guard) fun _ _ => rfl

theorem reads_pay (count : 2 ≤ s.cnt.toNat) (more : s.cnt.toNat + 2 ≤ s.len.toNat) (b : Byte) :
    Reads s [b]
      { s with pay := s.pay.write (s.cnt.toNat - 2) b, acc := accStep s.acc b, cnt := s.cnt + 0x01#8 } := by
  have selected := (selectedIn_rxPay_iff s.phase b).2 ⟨rf, inRules_of_cnt_lt long (by omega), count, more⟩
  have guard : (decide (s.st = .rf) && decide (2 ≤ s.cnt.toNat) && decide (s.cnt.toNat + 2 ≤ s.len.toNat)) = true := by
    simp [rf, count, more]
  exact reads_byte _ resp rfl rfl rfl selected (exec_rxPay b) (fun _ _ => guard) fun _ _ => rfl

/-- RX_CHK on the byte that matches the running checksum (R177). -/
theorem reads_chk (last : s.cnt.toNat + 1 = s.len.toNat) {k : Kind} (known : s.kind = kindByte k) :
    Reads s [s.acc]
      { s with ev := s.ev ++ [.frameOut (.data s.len k s.cmd s.payload s.acc) true s.lenOk],
               rxStats := s.rxStats.bump .data, resp := .respAck, st := .wff } := by
  have selected := (selectedIn_rxChk_iff s.phase s.acc).2 ⟨rf, inRules_of_cnt_lt long (by omega), last⟩
  have guard : (decide (s.st = .rf) && decide (s.cnt.toNat + 1 = s.len.toNat)) = true := by simp [rf, last]
  refine reads_byte _ resp rfl rfl rfl selected (exec_rxChk s.acc) (fun _ _ => guard) fun q l => ?_
  have kind : kindOf (fed s q l).kind = some k := kindOf_eq_some.2 known
  rcases completeData_cases k s.acc (fed s q l) with ⟨_, e⟩ | ⟨mismatch, _⟩
  · rw [completeFrameAt, kind]
    exact e
  · exact absurd rfl mismatch

end

/-- Writing bytes one after the other, from index `a` on. -/
def writeAll (m : Memory) (a : Nat) : List Byte → Memory
  | [] => m
  | b :: p => writeAll (m.write a b) (a + 1) p

/-- The bytes written stand behind those below them. -/
theorem bytes_writeAll {m : Memory} (wf : m.wf = true) (a : Nat) (p : List Byte) :
    (writeAll m a p).bytes (a + p.length) = m.bytes a ++ p := by
  induction p generalizing m a with
  | nil => simp [writeAll]
  | cons b p ih =>
    have here : (m.write a b).bytes (a + 1) = m.bytes a ++ [b] := by
      rw [Memory.bytes_succ, Memory.bytes_write m a b a wf le_rfl, Memory.read_write m a b wf, if_pos rfl]
    rw [writeAll, List.length_cons, Nat.add_comm p.length, ← Nat.add_assoc, ih (Memory.wf_write m a b wf), here,
      List.append_assoc, List.singleton_append]

/-- The payload bytes, up to the last byte before the checksum at most. -/
theorem reads_payload {s : State} (rf : s.st = .rf) (resp : s.resp = .none) (count : 2 ≤ s.cnt.toNat) (p : List Byte)
    (room : s.cnt.toNat + p.length + 1 ≤ s.len.toNat) :
    Reads s p
      { s with pay := writeAll s.pay (s.cnt.toNat - 2) p, acc := s.acc ^^^ xorfold p,
               cnt := s.cnt + BitVec.ofNat 8 p.length } := by
  induction p generalizing s with
  | nil => simpa [writeAll, xorfold] using reads_nil s
  | cons b p ih =>
    rw [List.length_cons] at room
    have hcnt : (s.cnt + 0x01#8).toNat = s.cnt.toNat + 1 := by bv_omega
    have hidx : s.cnt.toNat + 1 - 2 = s.cnt.toNat - 2 + 1 := by omega
    have hlen : s.cnt + 0x01#8 + BitVec.ofNat 8 p.length = s.cnt + BitVec.ofNat 8 (p.length + 1) := by bv_omega
    have first := reads_pay rf resp (by omega) count (by omega) b
    have others := ih (s := { s with
      pay := s.pay.write (s.cnt.toNat - 2) b, acc := accStep s.acc b, cnt := s.cnt + 0x01#8 }) rf resp
      (by simp only [hcnt]; omega) (by simp only [hcnt]; omega)
    simpa only [hcnt, hidx, hlen, writeAll, xorfold, accStep, BitVec.xor_assoc, List.length_cons,
      List.singleton_append] using reads_append first others

/-! Whole frames. -/

/-- The first four bytes of a Data frame start its assembly. -/
theorem reads_header {s : State} (free : s.lock = .free) (resp : s.resp = .none) {l : Byte} (long : 3 ≤ l.toNat)
    (kb c : Byte) :
    Reads s [Config.sof, l, kb, c]
      { s with st := .rf, len := l, cnt := 0x02#8, kind := kb, cmd := c, acc := xsum l kb c [], pay := [],
               lenOk := lenFlag s.params l, ev := s.ev ++ lengthReports s.params l } := by
  rw [xsum_nil]
  refine reads_append (reads_append (reads_append (reads_sof free resp) (reads_length ?_ ?_ long))
    (reads_kind ?_ ?_ ?_ ?_ kb)) (reads_cmd ?_ ?_ ?_ ?_ c)
  exacts [rfl, resp, rfl, resp, long, rfl, rfl, resp, long, rfl]

/-- The state with a Data frame assembled up to its checksum byte. -/
def assembled (s : State) (k : Kind) (c : Byte) (p : List Byte) : State :=
  { s with
    st := .rf
    len := lengthByte p
    cnt := 0x02#8 + BitVec.ofNat 8 p.length
    kind := kindByte k
    cmd := c
    acc := xsum (lengthByte p) (kindByte k) c p
    pay := writeAll [] 0 p
    lenOk := lenFlag s.params (lengthByte p)
    ev := s.ev ++ lengthReports s.params (lengthByte p) }

theorem reads_assembled {s : State} (free : s.lock = .free) (resp : s.resp = .none) (k : Kind) (c : Byte)
    {p : List Byte} (fits : p.length + 3 ≤ 255) :
    Reads s ([Config.sof, lengthByte p, kindByte k, c] ++ p) (assembled s k c p) := by
  have hlen := lengthByte_toNat fits
  have header := reads_header free resp (l := lengthByte p) (by omega) (kindByte k) c
  have sum : xsum (lengthByte p) (kindByte k) c [] ^^^ xorfold p = xsum (lengthByte p) (kindByte k) c p := by
    simp [xsum, xorfold]
  rw [assembled, ← sum]
  refine reads_append header (reads_payload ?_ ?_ ?_ p ?_)
  exacts [rfl, resp, le_rfl, by rw [hlen, BitVec.toNat_ofNat]; omega]

theorem assembled_payload (s : State) (k : Kind) (c : Byte) {p : List Byte} (fits : p.length + 3 ≤ 255) :
    (assembled s k c p).payload = p := by
  have written := bytes_writeAll Memory.wf_nil 0 p
  rw [Nat.zero_add] at written
  rw [State.payload, assembled, lengthByte_toNat fits, Nat.add_sub_cancel]
  exact written

/-- What is reported of a frame before it comes out. -/
def frameReports (ps : Params) : Frame → List Event
  | .ack | .nak | .can => []
  | .data _ _ _ p _ => lengthReports ps (lengthByte p)

/-- The response a received frame asks for when its checksum matches (R166 to R168, R177). -/
def responseTo : Frame → Resp
  | .ack | .nak | .can => .none
  | .data _ _ _ _ _ => .respAck

/-- What the RX agent makes of the bytes of the frame `f`: it has emitted the completed frame, behind what RX_LEN reports,
and is back in WFF with the response that `f` asks for. -/
structure Received (s : State) (f : Frame) (t : State) : Prop where
  ev : t.ev = s.ev ++ frameReports s.params f ++
    [.frameOut (completeFrame f) true (frameLenFlag s.params (completeFrame f))]
  st : t.st = .wff
  txw : t.txw = s.txw
  resp : t.resp = responseTo f

theorem received_single {s : State} {f : Frame} (single : f = .ack ∨ f = .nak ∨ f = .can) (wff : s.st = .wff)
    (resp : s.resp = .none) : Received s f (completeSingle f s) := by
  rcases single with rfl | rfl | rfl
  all_goals exact ⟨by rw [frameReports, List.append_nil]; rfl, wff, rfl, resp⟩

theorem reads_data {s : State} (free : s.lock = .free) (resp : s.resp = .none) (l : Byte) (k : Kind) (c : Byte)
    {p : List Byte} (x : Byte) (fits : p.length + 3 ≤ 255) :
    ∃ t, Reads s (encodeFrame (.data l k c p x)) t ∧ Received s (.data l k c p x) t := by
  have hlen := lengthByte_toNat fits
  have hcnt : (0x02#8 + BitVec.ofNat 8 p.length).toNat + 1 = (lengthByte p).toNat := by
    rw [hlen]
    bv_omega
  have checked := reads_chk (s := assembled s k c p) rfl resp (by simp only [assembled]; omega) hcnt rfl
  refine ⟨_, reads_append (reads_assembled free resp k c fits) checked, ?_⟩
  rw [assembled_payload s k c fits]
  exact ⟨rfl, rfl, rfl, rfl⟩

/-- The decoder takes the bytes of an admitted frame. -/
theorem reads_encodeFrame {s : State} {f : Frame} (ok : frameAdmitted s.params f = true) (free : s.lock = .free)
    (resp : s.resp = .none) : ∃ t, Reads s (encodeFrame f) t ∧ Received s f t := by
  obtain ⟨wff, _⟩ := (lock_eq_free s).1 free
  cases f with
  | ack | nak | can => exact ⟨_, reads_single (by simp) wff resp, received_single (by simp) wff resp⟩
  | data l k c p x =>
    obtain ⟨_, _, fits⟩ := (admitted_iff s.params p.length).1 ok
    exact reads_data free resp l k c x fits

/-- Where the encoder's bounds lie within the decoder's, an admitted frame has a length in range. -/
theorem frameLenFlag_of_admitted {ps : Params} {f : Frame} (ok : frameAdmitted ps f = true)
    (lower : ps.lenMin ≤ ps.encLenMin) (upper : ps.encLenMax ≤ ps.lenMax) :
    frameLenFlag ps (completeFrame f) = true := by
  cases f with
  | ack | nak | can => rfl
  | data l k c p x =>
    obtain ⟨hmin, hmax, fits⟩ := (admitted_iff ps p.length).1 ok
    have hlen := lengthByte_toNat fits
    simp only [completeFrame, frameLenFlag, lenFlag, Bool.and_eq_true, decide_eq_true_eq]
    omega

/-- The report before a frame tells that its length is out of range, and nothing else is reported. -/
theorem frameReports_cases (ps : Params) (f : Frame) :
    (frameLenFlag ps (completeFrame f) = true ∧ frameReports ps f = []) ∨
    (frameLenFlag ps (completeFrame f) = false ∧ ∃ l k c p x, completeFrame f = .data l k c p x ∧
      frameReports ps f = [.report (.lengthOutOfRange l)]) := by
  cases f with
  | ack | nak | can => exact .inl ⟨rfl, rfl⟩
  | data l k c p x =>
    cases flag : lenFlag ps (lengthByte p) with
    | true => exact .inl ⟨flag, by simp [frameReports, lengthReports, flag]⟩
    | false => exact .inr ⟨flag, _, _, _, _, _, rfl, by simp [frameReports, lengthReports, flag]⟩

/-- Settles O12: the bytes of the frame are read one after the other, and the report before it is RX_LEN's. -/
theorem roundTripLaw : Obligations.RoundTripLaw := by
  intro s f rest ok wff resp lock queue sched
  have free : s.lock = .free := by
    rw [Ne, lock_eq_heldTx] at lock
    exact (lock_eq_free s).2 ⟨wff, by simpa [wff] using lock⟩
  obtain ⟨t, reads, received⟩ := reads_encodeFrame ok free resp
  have start : s = fed s (encodeFrame f ++ []) (List.replicate (encodeFrame f).length .rxByte ++ rest) :=
    eq_fed (by rw [queue, List.append_nil]) sched
  have run := reads [] rest
  rw [← start] at run
  refine ⟨fed t [] rest, run, frameLenFlag_of_admitted ok, fun inRange => ?_, fun outOfRange => ?_, received.st,
    rfl, rfl, received.txw, ?_, ?_⟩
  · rcases frameReports_cases s.params f with ⟨_, silent⟩ | ⟨bad, _⟩
    · have events := received.ev
      rw [silent, inRange, List.append_nil] at events
      exact events
    · simp [inRange] at bad
  · rcases frameReports_cases s.params f with ⟨good, _⟩ | ⟨_, l, k, c, p, x, data, report⟩
    · simp [outOfRange] at good
    · have events := received.ev
      rw [report, outOfRange, List.append_assoc, List.singleton_append] at events
      exact ⟨l, k, c, p, x, data, events⟩
  · rintro l k c p x rfl
    exact received.resp
  · rintro (rfl | rfl | rfl)
    all_goals exact received.resp

end Sys2Proof.Proofs
end

section
/-! What each byte step of the decoder makes of the state when it takes its byte (42_frame_decoder.md R166 to R177), and the
statements about single byte steps. -/

namespace Sys2Proof.Proofs

open Sys2Proof Sys2Proof.Machine

/-! The bytes taken in WFF and WFL: the registers are inside the rules there whatever they hold (R161). -/

section
variable {s : State} {q : List Byte} (resp : s.resp = .none)
include resp

theorem exec_rxSof_next (queue : s.rxq = Config.sof :: q) (free : s.lock = .free) :
    exec .rxSof s = .next { s with rxq := q, st := .wfl } := by
  obtain ⟨wff, _⟩ := (lock_eq_free s).1 free
  exact (exec_rxSof s).trans (byteStep_next queue resp (by simp [wff, free]) (by simp [wff]))

theorem exec_rxAck_next (queue : s.rxq = Config.ack :: q) (wff : s.st = .wff) :
    exec .rxAck s = .next (completeSingle .ack { s with rxq := q }) :=
  (exec_rxAck s).trans (byteStep_next queue resp (decide_eq_true wff) (by simp [wff]))

theorem exec_rxNak_next (queue : s.rxq = Config.nak :: q) (wff : s.st = .wff) :
    exec .rxNak s = .next (completeSingle .nak { s with rxq := q }) :=
  (exec_rxNak s).trans (byteStep_next queue resp (decide_eq_true wff) (by simp [wff]))

theorem exec_rxCan_next (queue : s.rxq = Config.can :: q) (wff : s.st = .wff) :
    exec .rxCan s = .next (completeSingle .can { s with rxq := q }) :=
  (exec_rxCan s).trans (byteStep_next queue resp (decide_eq_true wff) (by simp [wff]))

variable {b : Byte} (queue : s.rxq = b :: q)
include queue

theorem exec_rxNoise_next (wff : s.st = .wff) (plain : noiseByteOk b = true) :
    exec (.rxNoise b) s = .next ({ s with rxq := q }.countRx .oof) :=
  (exec_rxNoise b s).trans (byteStep_next queue resp (by simp [wff, plain]) (by simp [wff]))

theorem exec_rxLen_next (wfl : s.st = .wfl) : exec (.rxLen b) s = .next (takeLength b { s with rxq := q }) :=
  (exec_rxLen b s).trans (byteStep_next queue resp (decide_eq_true wfl) (by simp [wfl]))

/-! The bytes taken in RF: `cnt` selects among them. A frame with payload to come has `len >= 3`; for the other
bytes that is asked for, so that the registers are inside the rules (I1). -/

variable (rf : s.st = .rf)
include rf

theorem exec_rxPay_next (count : 2 ≤ s.cnt.toNat) (more : s.cnt.toNat + 2 ≤ s.len.toNat) :
    exec (.rxPay b) s = .next
      { s with rxq := q, pay := s.pay.write (s.cnt.toNat - 2) b, acc := accStep s.acc b, cnt := s.cnt + 0x01#8 } :=
  (exec_rxPay b s).trans (byteStep_next queue resp (by simp only [rf, count, more, decide_true, Bool.and_self])
    fun _ => ⟨by omega, by omega⟩)

variable (long : 3 ≤ s.len.toNat)
include long

theorem exec_rxKind_next (count : s.cnt.toNat = 0) :
    exec (.rxKind b) s = .next { s with rxq := q, kind := b, acc := accStep s.acc b, cnt := 0x01#8 } :=
  (exec_rxKind b s).trans (byteStep_next queue resp (by simp only [rf, count, decide_true, Bool.and_self])
    fun _ => ⟨long, by omega⟩)

theorem exec_rxCmd_next (count : s.cnt.toNat = 1) :
    exec (.rxCmd b) s = .next { s with rxq := q, cmd := b, acc := accStep s.acc b, cnt := 0x02#8 } :=
  (exec_rxCmd b s).trans (byteStep_next queue resp (by simp only [rf, count, decide_true, Bool.and_self])
    fun _ => ⟨long, by omega⟩)

theorem exec_rxChk_next (last : s.cnt.toNat + 1 = s.len.toNat) :
    exec (.rxChk b) s = .next (completeFrameAt b { s with rxq := q }) :=
  (exec_rxChk b s).trans (byteStep_next queue resp (by simp only [rf, last, decide_true, Bool.and_self])
    fun _ => ⟨long, by omega⟩)

end

/-! What the operations do once the byte is taken, in each case of their own. -/

theorem takeLength_of_short {b : Byte} (short : b.toNat < 3) (s : State) :
    takeLength b s = s.resync (.malformedLength b) :=
  if_pos ((lenMalformed_iff b).2 short)

/-- `len_ok` in the words of 10_state.md R28. -/
theorem lenFlag_eq_decide (ps : Params) (b : Byte) :
    lenFlag ps b = decide (ps.lenMin ≤ b.toNat ∧ b.toNat ≤ ps.lenMax) :=
  (Bool.decide_and _ _).symm

/-- RX_LEN adds its report exactly when the length is out of range (R171). -/
theorem append_lengthReports (l : List Event) (ps : Params) (b : Byte) : l ++ lengthReports ps b =
    if ps.lenMin ≤ b.toNat ∧ b.toNat ≤ ps.lenMax then l else l ++ [.report (.lengthOutOfRange b)] := by
  by_cases inRange : ps.lenMin ≤ b.toNat ∧ b.toNat ≤ ps.lenMax
  · simp [lengthReports, lenFlag_eq_decide, inRange]
  · simp only [lengthReports, lenFlag_eq_decide, inRange, decide_false, Bool.false_eq_true, if_false]

theorem completeFrameAt_of_malformed {s : State} (malformed : s.kind ≠ 0x00#8 ∧ s.kind ≠ 0x01#8) (b : Byte) :
    completeFrameAt b s = s.resync (.malformedKind s.kind) := by
  rw [completeFrameAt, kindOf_eq_none.2 malformed]
  rfl

theorem completeFrameAt_of_known {s : State} {k : Kind} (known : s.kind = kindByte k) (b : Byte) :
    completeFrameAt b s = completeData k b s := by
  rw [completeFrameAt, kindOf_eq_some.2 known]

/-- A matching checksum byte completes the frame with RespAck (R177). -/
theorem completeData_of_match {b : Byte} {s : State} (chk : b = s.acc) (k : Kind) : completeData k b s =
    { s with ev := s.ev ++ [.frameOut (.data s.len k s.cmd s.payload b) true s.lenOk],
             rxStats := s.rxStats.bump .data, resp := .respAck, st := .wff } := by
  rcases completeData_cases k b s with ⟨_, e⟩ | ⟨mismatch, _⟩
  · exact e
  · exact absurd chk mismatch

/-- Any other completes it with a report and RespNak (R177). -/
theorem completeData_of_mismatch {b : Byte} {s : State} (chk : b ≠ s.acc) (k : Kind) : completeData k b s =
    { s with ev := s.ev ++ [.frameOut (.data s.len k s.cmd s.payload b) false s.lenOk,
               .report (.checksumMismatch b s.acc)],
             rxStats := s.rxStats.bump .data, resp := .respNak, st := .wff } := by
  rcases completeData_cases k b s with ⟨same, _⟩ | ⟨_, e⟩
  · exact absurd same chk
  · exact e

/-! The obligations. -/

/-- Settles O29: with no write in flight the lock is free in WFF, and WFL holds it. -/
theorem rxSofTakesLock : Obligations.RxSofTakesLock := by
  intro s q queue resp wff quiet
  have free := (lock_eq_free s).2 ⟨wff, (isActive_eq_false s.tx).2 quiet⟩
  exact ⟨exec_rxSof_next resp queue free, (lock_eq_heldRx _).2 (by simp)⟩

/-- Settles O30: no single-byte frame asks for the lock. -/
theorem rxSingleByteFrames : Obligations.RxSingleByteFrames := by
  intro s q resp wff
  exact ⟨fun queue => exec_rxAck_next resp queue wff, fun queue => exec_rxNak_next resp queue wff,
    fun queue => exec_rxCan_next resp queue wff⟩

theorem noiseByteOk_of_notMem {b : Byte} (h : b ∉ [0x01#8, 0x06#8, 0x15#8, 0x18#8]) : noiseByteOk b = true := by
  simpa [noiseByteOk, isMarker, Config.sof, Config.ack, Config.nak, Config.can, and_assoc] using h

/-- Settles O31. -/
theorem rxNoiseCounted : Obligations.RxNoiseCounted := by
  intro s b q plain queue resp wff
  exact exec_rxNoise_next resp queue wff (noiseByteOk_of_notMem plain)

/-- Settles O32: below 3 the decoder resynchronises, from 3 on it starts the frame with `pay` cleared, behind the report of
a length out of range. -/
theorem rxLenStartsAssembly : Obligations.RxLenStartsAssembly := by
  intro s b q queue resp wfl
  rw [exec_rxLen_next resp queue wfl]
  refine ⟨fun short => ?_, fun long => ⟨_, rfl, ?_⟩⟩
  · rw [takeLength_of_short short]
    rfl
  · rw [takeLength_of_three_le long, append_lengthReports, startFrame, lenFlag_eq_decide]
    exact ⟨fun _ => rfl, rfl⟩

/-- Settles O33. -/
theorem rxKindLatches : Obligations.RxKindLatches := by
  intro s b q queue resp rf long count
  exact exec_rxKind_next resp queue rf long (congrArg BitVec.toNat count)

/-- Settles O34. -/
theorem rxCmdLatches : Obligations.RxCmdLatches := by
  intro s b q queue resp rf long count
  exact exec_rxCmd_next resp queue rf long (congrArg BitVec.toNat count)

/-- Settles O35: a byte length bounds the index, and the write is read back at its index and nowhere else. -/
theorem rxPayStoresByte : Obligations.RxPayStoresByte := by
  intro s b q queue resp rf count more wf
  have executed := exec_rxPay_next resp queue rf count (by omega)
  have hcnt : (s.cnt + 0x01#8).toNat = s.cnt.toNat + 1 := by bv_omega
  exact ⟨by omega, _, executed, Memory.wf_write s.pay _ b wf, Memory.read_write s.pay _ b wf, hcnt, rfl⟩

/-- Settles O36: the kind is tested before the checksum (60_exceptions.md R243). -/
theorem rxChkMalformedKind : Obligations.RxChkMalformedKind := by
  intro s b q queue resp rf long last bad
  have malformed : s.kind ≠ 0x00#8 ∧ s.kind ≠ 0x01#8 := by simpa using bad
  rw [exec_rxChk_next resp queue rf long (by omega), completeFrameAt_of_malformed (s := { s with rxq := q }) malformed]
  rfl

/-- Settles O37: a known kind completes the frame, and the checksum byte decides the response. -/
theorem rxChkCompletesData : Obligations.RxChkCompletesData := by
  intro s b q k queue resp rf long last kind
  have known : s.kind = kindByte k := by
    rcases kind with ⟨hkind, rfl⟩ | ⟨hkind, rfl⟩
    · exact hkind
    · exact hkind
  rw [exec_rxChk_next resp queue rf long (by omega), completeFrameAt_of_known (s := { s with rxq := q }) known]
  refine ⟨fun chk => ?_, fun chk => ?_⟩
  · rw [completeData_of_match (s := { s with rxq := q }) chk]
    rfl
  · rw [completeData_of_mismatch (s := { s with rxq := q }) chk]
    rfl

end Sys2Proof.Proofs
end

section
/-! No step faults inside the rules (60_exceptions.md R241), and when the RX agent takes a byte (42_frame_decoder.md R160,
R164). -/

namespace Sys2Proof.Proofs

open Sys2Proof Sys2Proof.Machine

/-! Inside the rules every operation has a next state. -/

theorem byteStep_completes {s : State} (inside : s.outsideRules = false) (b : Byte) (sel : Bool) (f : State → State) :
    ∃ t, byteStep b sel f s = .next t := by
  rcases byteStep_cases b sel f s with ⟨_, e⟩ | ⟨_, outside, _⟩ | ⟨_, _, e⟩
  · exact ⟨_, e⟩
  · rw [inside] at outside; cases outside
  · exact ⟨_, e⟩

theorem withBuffer_completes {α : Type} (p : Nat) (op : Buffer → Except BufFault (α × Buffer)) (val : α → Ret)
    (s : State) : ∃ t, withBuffer p op val s = .next t := by
  rcases withBuffer_cases p op val s with ⟨_, e⟩ | ⟨_, _, _, _, _, e⟩ | ⟨_, _, _, _, e⟩
  all_goals exact ⟨_, e⟩

theorem execBufFromValues_completes (vs : List Int) (s : State) : ∃ t, execBufFromValues vs s = .next t := by
  unfold execBufFromValues
  split
  all_goals exact ⟨_, rfl⟩

theorem execOpenPort_completes (s : State) : ∃ t, execOpenPort s = .next t := by
  rcases execOpenPort_cases s with ⟨_, e⟩ | ⟨_, e⟩
  all_goals exact ⟨_, e⟩

theorem execTxSubmit_completes (f : Frame) (s : State) : ∃ t, execTxSubmit f s = .next t := by
  rcases execTxSubmit_cases f s with e | ⟨_, _, e⟩ | ⟨_, _, _, e⟩
  all_goals exact ⟨_, e⟩

theorem execRespTx_completes (k : Nat) (r : WriteResult) (s : State) : ∃ t, execRespTx k r s = .next t := by
  rcases execRespTx_cases k r s with e | ⟨_, _, _, e⟩
  all_goals exact ⟨_, e⟩

theorem execTxBegin_completes (k : Nat) (s : State) : ∃ t, execTxBegin k s = .next t := by
  rcases execTxBegin_cases k s with e | ⟨_, _, _, _, e⟩
  all_goals exact ⟨_, e⟩

theorem execTxEnd_completes (r : WriteResult) (s : State) : ∃ t, execTxEnd r s = .next t := by
  rcases execTxEnd_cases r s with e | ⟨_, _, _, e⟩
  all_goals exact ⟨_, e⟩

/-- An operation that takes no wire byte has a next state in every state. -/
theorem exec_completes_of_not_isByteStep {i : Instr} (port : i.isByteStep = false) (s : State) :
    ∃ t, exec i s = .next t := by
  cases i with
  | rxSof | rxAck | rxNak | rxCan | rxNoise _ | rxLen _ | rxKind _ | rxCmd _ | rxPay _ | rxChk _ => cases port
  | openPort => exact execOpenPort_completes s
  | txSubmit f => exact execTxSubmit_completes f s
  | bufFromValues vs => exact execBufFromValues_completes vs s
  | bufGet p idx => rw [exec_bufGet]; exact withBuffer_completes _ _ _ s
  | bufSet p idx v => rw [exec_bufSet]; exact withBuffer_completes _ _ _ s
  | bufNext p => rw [exec_bufNext]; exact withBuffer_completes _ _ _ s
  | bufNext24 p => rw [exec_bufNext24]; exact withBuffer_completes _ _ _ s
  | bufHasNext p => rw [exec_bufHasNext]; exact withBuffer_completes _ _ _ s
  | respTx k r => exact execRespTx_completes k r s
  | txBegin k => exact execTxBegin_completes k s
  | txEnd r => exact execTxEnd_completes r s
  | _ => exact ⟨_, rfl⟩

theorem exec_completes {s : State} (inside : s.outsideRules = false) (i : Instr) : ∃ t, exec i s = .next t := by
  cases byte : i.isByteStep with
  | false => exact exec_completes_of_not_isByteStep byte s
  | true =>
    obtain ⟨b, sel, f, e⟩ := exec_isByteStep byte s
    rw [e]
    exact byteStep_completes inside b sel f

/-! The turn. -/

theorem takeTurn_of_holdsByte {s : State} {m : Move} (h : holdsByte s m = true) : takeTurn m s = .next s := by
  rw [takeTurn, if_pos h]

/-- A byte step's turn with no byte waiting or a response pending (R164, cases 1 and 2). -/
theorem takeTurn_rxByte_of_hold {s : State} (h : s.rxq = [] ∨ s.resp ≠ .none) : takeTurn .rxByte s = .next s :=
  takeTurn_of_holdsByte (by simpa [holdsByte] using h)

theorem takeTurn_ne_fault {s : State} (inside : s.outsideRules = false) (m : Move) (r : Fault) :
    takeTurn m s ≠ .fault r := by
  have inRules : s.phase.inRules = true := (inRules_iff s.phase).2 ((outsideRules_eq_false s).1 inside)
  rw [takeTurn]
  split_ifs
  · nofun
  · cases hd : decodeAt s m with
    | instr i =>
      obtain ⟨t, e⟩ := exec_completes inside i
      rw [runDecoded_instr, e]
      nofun
    | outsideRules => exact absurd hd (decode_ne_outsideRules _ inRules)
    | hold | timeout | rejected _ => nofun

/-- Settles O10: the invariant keeps the registers inside the rules, where every turn completes or is refused. -/
theorem invariantStepNeverFaults : Obligations.InvariantStepNeverFaults := by
  intro s r h
  cases hs : s.sched with
  | nil => rw [step_nil hs]; nofun
  | cons m rest =>
    rw [step_cons hs]
    exact takeTurn_ne_fault (s := { s with sched := rest }) ((outsideRules_eq_false s).2 h.inRules) m r

/-! The byte a turn takes. -/

theorem takeLength_rxq (b : Byte) (s : State) : (takeLength b s).rxq = s.rxq := by
  rcases takeLength_cases b s with ⟨_, e⟩ | ⟨_, _, e⟩ | ⟨_, _, e⟩
  all_goals rw [e]; rfl

theorem completeFrameAt_rxq (b : Byte) (s : State) : (completeFrameAt b s).rxq = s.rxq := by
  rcases completeFrameAt_cases b s with ⟨_, e⟩ | ⟨k, _, e⟩
  · rw [e]; rfl
  · rcases completeData_cases k b s with ⟨_, e'⟩ | ⟨_, e'⟩
    all_goals rw [e, e']

theorem eq_of_encode_eq_onWire {i : Instr} {a b : Byte} (word : encode i = onWire b) (enc : encode i = onWire a) :
    b = a :=
  Option.some.inj (congrArg Fetched.rx (word.symm.trans enc))

/-- The operation read from the byte at the head of `rxq` takes exactly that byte, unless it is an SOF that finds the lock
held (R160, R164). -/
theorem exec_takes_byte {s : State} {b : Byte} {q : List Byte} {i : Instr} (queue : s.rxq = b :: q)
    (resp : s.resp = .none) (free : b = Config.sof → s.st = .wff → s.lock = .free)
    (decoded : decodeByte s.phase b = .instr i) : ∃ t, exec i s = .next t ∧ t.rxq = q := by
  obtain ⟨wf, sel, word⟩ := spec_of_decodeByte_eq decoded
  cases i with
  | rxSof =>
    obtain rfl := eq_of_encode_eq_onWire word (a := Config.sof) rfl
    exact ⟨_, exec_rxSof_next resp queue (free rfl (of_decide_eq_true sel)), rfl⟩
  | rxAck =>
    obtain rfl := eq_of_encode_eq_onWire word (a := Config.ack) rfl
    exact ⟨_, exec_rxAck_next resp queue (of_decide_eq_true sel), rfl⟩
  | rxNak =>
    obtain rfl := eq_of_encode_eq_onWire word (a := Config.nak) rfl
    exact ⟨_, exec_rxNak_next resp queue (of_decide_eq_true sel), rfl⟩
  | rxCan =>
    obtain rfl := eq_of_encode_eq_onWire word (a := Config.can) rfl
    exact ⟨_, exec_rxCan_next resp queue (of_decide_eq_true sel), rfl⟩
  | rxNoise _ =>
    obtain rfl := eq_of_encode_eq_onWire word rfl
    exact ⟨_, exec_rxNoise_next resp queue (of_decide_eq_true sel) wf, rfl⟩
  | rxLen _ =>
    obtain rfl := eq_of_encode_eq_onWire word rfl
    exact ⟨_, exec_rxLen_next resp queue (of_decide_eq_true sel), takeLength_rxq _ _⟩
  | rxKind _ =>
    obtain rfl := eq_of_encode_eq_onWire word rfl
    obtain ⟨rf, inRules, count⟩ := (selectedIn_rxKind_iff s.phase b).1 sel
    exact ⟨_, exec_rxKind_next resp queue rf ((inRules_iff s.phase).1 inRules rf).1 count, rfl⟩
  | rxCmd _ =>
    obtain rfl := eq_of_encode_eq_onWire word rfl
    obtain ⟨rf, inRules, count⟩ := (selectedIn_rxCmd_iff s.phase b).1 sel
    exact ⟨_, exec_rxCmd_next resp queue rf ((inRules_iff s.phase).1 inRules rf).1 count, rfl⟩
  | rxPay _ =>
    obtain rfl := eq_of_encode_eq_onWire word rfl
    obtain ⟨rf, _, count, more⟩ := (selectedIn_rxPay_iff s.phase b).1 sel
    exact ⟨_, exec_rxPay_next resp queue rf count more, rfl⟩
  | rxChk _ =>
    obtain rfl := eq_of_encode_eq_onWire word rfl
    obtain ⟨rf, inRules, last⟩ := (selectedIn_rxChk_iff s.phase b).1 sel
    exact ⟨_, exec_rxChk_next resp queue rf ((inRules_iff s.phase).1 inRules rf).1 last, completeFrameAt_rxq _ _⟩
  | _ => cases word

/-- Inside the rules every wire byte is read as an operation (R161). -/
theorem decodeByte_eq_instr {p : Phase} (inRules : p.inRules = true) (b : Byte) : ∃ i, decodeByte p b = .instr i := by
  cases hst : p.st with
  | wff => exact ⟨_, decodeByte_wff hst b⟩
  | wfl => exact ⟨_, decodeByte_wfl hst b⟩
  | rf => exact ⟨_, decodeByte_rf hst inRules b⟩

theorem takeTurn_takes_byte {s : State} {b : Byte} {q : List Byte} (inside : s.outsideRules = false)
    (queue : s.rxq = b :: q) (resp : s.resp = .none) (free : b = Config.sof → s.st = .wff → s.lock = .free) :
    ∃ t, takeTurn .rxByte s = .next t ∧ t.rxq = q := by
  obtain ⟨i, decoded⟩ := decodeByte_eq_instr ((inRules_iff s.phase).2 ((outsideRules_eq_false s).1 inside)) b
  rw [takeTurn_rxByte queue resp, decoded]
  exact exec_takes_byte queue resp free decoded

/-- An SOF in WFF waits while a write is in flight (R164, case 3). -/
theorem takeTurn_rxByte_of_sof_waits {s : State} {q : List Byte} (queue : s.rxq = Config.sof :: q)
    (resp : s.resp = .none) (wff : s.st = .wff) (busy : s.tx.isActive = true) : takeTurn .rxByte s = .next s := by
  rw [takeTurn_rxByte queue resp, decodeByte_wff wff]
  exact notEnabledHolds .rxSof s (by simp [enabled, (lock_eq_heldTx s).2 ⟨wff, busy⟩])

/-- Settles O26: the cases of the hold, and outside them the byte is read as an operation that takes it. -/
theorem rxAgentHoldsInThreeCases : Obligations.RxAgentHoldsInThreeCases := by
  intro s rest h hs
  rw [step_cons hs]
  refine ⟨fun holds => ?_, fun moves => ?_⟩
  · by_cases early : s.rxq = [] ∨ s.resp ≠ .none
    · exact takeTurn_rxByte_of_hold (s := { s with sched := rest }) early
    · obtain ⟨_, resp⟩ : s.rxq ≠ [] ∧ s.resp = .none := by simpa using early
      obtain ⟨wff, head, active⟩ := or_assoc.2 holds |>.resolve_left early
      obtain ⟨q, queue⟩ := List.head?_eq_some_iff.1 head
      have busy := (isActive_eq_true s.tx).2 active
      exact takeTurn_rxByte_of_sof_waits (s := { s with sched := rest }) queue resp wff busy
  · obtain ⟨waiting, resp, noSof⟩ : s.rxq ≠ [] ∧ s.resp = .none ∧
        ¬(s.st = .wff ∧ s.rxq.head? = some 0x01#8 ∧ ∃ f w, s.tx = .active f w) := by
      simpa only [not_or, not_not] using moves
    obtain ⟨b, q, queue⟩ := List.exists_cons_of_ne_nil waiting
    have free : b = Config.sof → s.st = .wff → s.lock = .free := by
      rintro rfl wff
      refine (lock_eq_free s).2 ⟨wff, (isActive_eq_false s.tx).2 fun f w active => ?_⟩
      exact noSof ⟨wff, by rw [queue]; rfl, f, w, active⟩
    obtain ⟨t, turn, taken⟩ := takeTurn_takes_byte (s := { s with sched := rest })
      ((outsideRules_eq_false s).2 h.inRules) queue resp free
    exact ⟨b, q, t, queue, turn, taken⟩

end Sys2Proof.Proofs
end

section
/-! A step that emits a frame or reports a malformed length or kind leaves the decoder in WFF (42_frame_decoder.md R179). -/

namespace Sys2Proof.Proofs

open Sys2Proof Sys2Proof.Machine

/-- The events R179 speaks of: a frame, a malformed length, a malformed kind. -/
def endsAssembly : Event → Bool
  | .frameOut _ _ _ | .report (.malformedLength _) | .report (.malformedKind _) => true
  | .report (.checksumMismatch _ _) | .report (.lengthOutOfRange _) | .report .transportIoError => false
  | .report (.encodeLengthError _) | .report (.illegalHostOp _) => false

/-- `t` comes after `s` with no event that R179 speaks of. -/
def AssemblyGoesOn (s t : State) : Prop := ∃ l, t.ev = s.ev ++ l ∧ ∀ e ∈ l, endsAssembly e = false

theorem assemblyGoesOn_of_ev_eq {s t : State} (h : t.ev = s.ev) : AssemblyGoesOn s t := ⟨[], by simpa using h, by simp⟩

theorem assemblyGoesOn_of_event {s t : State} {e : Event} (h : t.ev = s.ev ++ [e]) (he : endsAssembly e = false) :
    AssemblyGoesOn s t := ⟨[e], h, List.forall_mem_singleton.2 he⟩

theorem byteStep_wff_or_goesOn {b : Byte} {sel : Bool} {f : State → State} {s t : State}
    (h : byteStep b sel f s = .next t)
    (take : sel = true → (f s.consume).st = .wff ∨ AssemblyGoesOn s (f s.consume)) :
    t.st = .wff ∨ AssemblyGoesOn s t := by
  rcases byteStep_cases b sel f s with ⟨_, e⟩ | ⟨_, _, e⟩ | ⟨⟨_, hsel⟩, _, e⟩
  · cases e.symm.trans h; exact .inr (assemblyGoesOn_of_ev_eq rfl)
  · cases e.symm.trans h
  · cases e.symm.trans h; exact take hsel

theorem takeLength_wff_or_goesOn (b : Byte) (s : State) :
    (takeLength b s).st = .wff ∨ AssemblyGoesOn s (takeLength b s) := by
  rcases takeLength_cases b s with ⟨_, e⟩ | ⟨_, _, e⟩ | ⟨_, _, e⟩
  all_goals rw [e]
  · exact .inl rfl
  · exact .inr (assemblyGoesOn_of_ev_eq rfl)
  · exact .inr (assemblyGoesOn_of_event rfl rfl)

theorem completeFrameAt_st (b : Byte) (s : State) : (completeFrameAt b s).st = .wff := by
  rcases completeFrameAt_cases b s with ⟨_, e⟩ | ⟨k, _, e⟩
  · rw [e]; rfl
  · rcases completeData_cases k b s with ⟨_, e'⟩ | ⟨_, e'⟩
    all_goals rw [e, e']

theorem exec_isByteStep_wff_or_goesOn {i : Instr} {s t : State} (hi : i.isByteStep = true) (h : exec i s = .next t) :
    t.st = .wff ∨ AssemblyGoesOn s t := by
  cases i with
  | rxSof => exact byteStep_wff_or_goesOn ((exec_rxSof s).symm.trans h) fun _ => .inr (assemblyGoesOn_of_ev_eq rfl)
  | rxAck => exact byteStep_wff_or_goesOn ((exec_rxAck s).symm.trans h) fun sel => .inl (of_decide_eq_true sel)
  | rxNak => exact byteStep_wff_or_goesOn ((exec_rxNak s).symm.trans h) fun sel => .inl (of_decide_eq_true sel)
  | rxCan => exact byteStep_wff_or_goesOn ((exec_rxCan s).symm.trans h) fun sel => .inl (of_decide_eq_true sel)
  | rxNoise b =>
    exact byteStep_wff_or_goesOn ((exec_rxNoise b s).symm.trans h) fun _ => .inr (assemblyGoesOn_of_ev_eq rfl)
  | rxLen b =>
    exact byteStep_wff_or_goesOn ((exec_rxLen b s).symm.trans h) fun _ => takeLength_wff_or_goesOn b s.consume
  | rxKind b =>
    exact byteStep_wff_or_goesOn ((exec_rxKind b s).symm.trans h) fun _ => .inr (assemblyGoesOn_of_ev_eq rfl)
  | rxCmd b =>
    exact byteStep_wff_or_goesOn ((exec_rxCmd b s).symm.trans h) fun _ => .inr (assemblyGoesOn_of_ev_eq rfl)
  | rxPay b =>
    exact byteStep_wff_or_goesOn ((exec_rxPay b s).symm.trans h) fun _ => .inr (assemblyGoesOn_of_ev_eq rfl)
  | rxChk b =>
    exact byteStep_wff_or_goesOn ((exec_rxChk b s).symm.trans h) fun _ => .inl (completeFrameAt_st b s.consume)
  | _ => cases hi

/-! The other operations report the transport, the encoder or the host code only (60_exceptions.md R240). -/

theorem sendResult_goesOn (s : State) (f : Frame) (w : List Byte) (r : WriteResult) :
    AssemblyGoesOn s (s.sendResult f w r) := by
  cases r with
  | ok => exact assemblyGoesOn_of_ev_eq rfl
  | fail m => exact assemblyGoesOn_of_event rfl rfl

theorem execRespTx_goesOn {k : Nat} {r : WriteResult} {s t : State} (h : execRespTx k r s = .next t) :
    AssemblyGoesOn s t := by
  rcases execRespTx_cases k r s with e | ⟨f, _, _, e⟩ <;> cases e.symm.trans h
  · exact assemblyGoesOn_of_ev_eq rfl
  · exact sendResult_goesOn (s.flushInput k) f _ r

theorem execTxEnd_goesOn {r : WriteResult} {s t : State} (h : execTxEnd r s = .next t) : AssemblyGoesOn s t := by
  rcases execTxEnd_cases r s with e | ⟨f, w, _, e⟩ <;> cases e.symm.trans h
  · exact assemblyGoesOn_of_ev_eq rfl
  · exact sendResult_goesOn s f w r

theorem execTxSubmit_goesOn {f : Frame} {s t : State} (h : execTxSubmit f s = .next t) : AssemblyGoesOn s t := by
  rcases execTxSubmit_cases f s with e | ⟨_, _, e⟩ | ⟨_, _, n, e⟩ <;> cases e.symm.trans h
  · exact assemblyGoesOn_of_ev_eq rfl
  · exact assemblyGoesOn_of_ev_eq rfl
  · exact assemblyGoesOn_of_event rfl rfl

theorem exec_wff_or_goesOn {i : Instr} {s t : State} (h : exec i s = .next t) : t.st = .wff ∨ AssemblyGoesOn s t := by
  obtain ⟨_, _, _, _, _, _, _, _, evWriters, _⟩ := itemsHaveTheirWriters i s t h
  cases i with
  | rxSof | rxAck | rxNak | rxCan | rxNoise _ | rxLen _ | rxKind _ | rxCmd _ | rxPay _ | rxChk _ =>
    exact exec_isByteStep_wff_or_goesOn rfl h
  | respTx k r => exact .inr (execRespTx_goesOn h)
  | txEnd r => exact .inr (execTxEnd_goesOn h)
  | txSubmit f => exact .inr (execTxSubmit_goesOn h)
  | hostopReserved4to7 _ | hostopReserved8toF _ => cases h; exact .inr (assemblyGoesOn_of_event rfl rfl)
  | _ => exact .inr (assemblyGoesOn_of_ev_eq (by simpa [Instr.agent] using evWriters))

/-- Settles O20: a step ends in WFF or adds none of these events. -/
theorem errorsAndFramesEndInWff : Obligations.ErrorsAndFramesEndInWff := by
  intro s t l hstep hev found
  have ends : ∃ e ∈ l, endsAssembly e = true := by
    rcases found with ⟨_, _, _, mem⟩ | ⟨_, mem⟩ | ⟨_, mem⟩
    all_goals exact ⟨_, mem, rfl⟩
  have cases : t.st = .wff ∨ AssemblyGoesOn s t := by
    obtain ⟨r, rfl | ⟨_, _, _, rfl⟩ | ⟨i, hi⟩⟩ := step_cases hstep
    · exact .inr (assemblyGoesOn_of_ev_eq rfl)
    · exact .inl rfl
    · exact exec_wff_or_goesOn (s := { s with sched := r }) hi
  refine cases.resolve_right fun ⟨l', hev', goesOn⟩ => ?_
  obtain rfl := List.append_cancel_left (hev.symm.trans hev')
  obtain ⟨e, mem, he⟩ := ends
  simp [goesOn e mem] at he

end Sys2Proof.Proofs
end

section
/-! The steps on the link and TX_SUBMIT, each on the states that enable it (43_link_io.md R202 to R212), and the statements
about single link steps. -/

namespace Sys2Proof.Proofs

open Sys2Proof Sys2Proof.Machine

/-! What each operation makes of a state that enables it. -/

theorem exec_txSubmit_of_idle {s : State} (idle : s.tx = .idle) (f : Frame) :
    exec (.txSubmit f) s = .next (submitFrame f s) := by
  change execTxSubmit f s = _
  rw [execTxSubmit, idle]

/-- An admitted frame is queued as the encoder completes it, with its encoding (R204). -/
theorem submitFrame_of_admitted {f : Frame} {s : State} (ok : frameAdmitted s.params f = true) :
    submitFrame f s = { s with tx := .queued (completeFrame f) (encodeFrame f) } := by
  cases f with
  | ack | nak | can => rfl
  | data l k c p x => exact if_pos ok

/-- A Data frame that is not admitted is reported with its length (R204, 41_frame_codec.md R138). -/
theorem submitFrame_data_of_not_admitted {s : State} {p : List Byte} (bad : ¬admitted s.params p.length = true)
    (l : Byte) (k : Kind) (c x : Byte) :
    submitFrame (.data l k c p x) s = s.report (.encodeLengthError (p.length + 3)) := if_neg bad

theorem exec_respTx_of_pending {s : State} {f : Frame} (pending : s.resp.frame = some f) (free : s.lock = .free)
    (k : Nat) (r : WriteResult) :
    exec (.respTx k r) s = .next { (s.flushInput k).sendResult f (encodeFrame f) r with resp := .none } := by
  change execRespTx k r s = _
  rw [execRespTx, pending]
  exact if_pos free

theorem exec_txBegin_of_queued {s : State} {f : Frame} {w : List Byte} (queued : s.tx = .queued f w)
    (free : s.lock = .free) (k : Nat) : exec (.txBegin k) s = .next { s.flushInput k with tx := .active f w } := by
  change execTxBegin k s = _
  rw [execTxBegin, queued]
  exact if_pos free

theorem exec_txEnd_of_active {s : State} {f : Frame} {w : List Byte} (active : s.tx = .active f w) (r : WriteResult) :
    exec (.txEnd r) s = .next { s.sendResult f w r with tx := .idle } := by
  change execTxEnd r s = _
  rw [execTxEnd, active]

theorem exec_rxArrive (bs : List Byte) (s : State) : exec (.rxArrive bs) s = .next { s with rxq := s.rxq ++ bs } := rfl

theorem exec_statsRead (c : Counter) (s : State) :
    exec (.statsRead c) s = .next (s.returns (.count (s.counter c))) := rfl

/-! The obligations. -/

/-- Settles O44: with `tx` Idle the admission decides, and an admitted length fits the length byte. -/
theorem txSubmitQueuesFrame : Obligations.TxSubmitQueuesFrame := by
  intro s idle
  have queues (f : Frame) (ok : frameAdmitted s.params f = true) :
      exec (.txSubmit f) s = .next { s with tx := .queued (completeFrame f) (encodeFrame f) } := by
    rw [exec_txSubmit_of_idle idle, submitFrame_of_admitted ok]
  refine ⟨queues .ack rfl, queues .nak rfl, queues .can rfl, fun l k c p x => ⟨fun ok => ?_, fun bad => ?_⟩⟩
  · have ⟨_, _, fits⟩ := ok
    have queued := queues (.data l k c p x) ((admitted_iff s.params p.length).2 ok)
    exact ⟨lengthByte p, kindByte k, xsum (lengthByte p) (kindByte k) c p, lengthByte_toNat fits, by cases k <;> rfl, rfl,
      queued⟩
  · rw [exec_txSubmit_of_idle idle, submitFrame_data_of_not_admitted (mt (admitted_iff s.params p.length).1 bad)]
    rfl

/-- Settles O54: in WFF with no write in flight the lock is free, and the write result decides between count and report. -/
theorem respTxSendsResponse : Obligations.RespTxSendsResponse := by
  intro s k _ wff quiet
  have free := (lock_eq_free s).2 ⟨wff, (isActive_eq_false s.tx).2 quiet⟩
  have sends {f : Frame} (r : WriteResult) (pending : s.resp.frame = some f) := exec_respTx_of_pending pending free k r
  exact ⟨fun ack => sends .ok (congrArg Resp.frame ack), fun nak => sends .ok (congrArg Resp.frame nak),
    fun m _ ack => sends (.fail m) (congrArg Resp.frame ack), fun m _ nak => sends (.fail m) (congrArg Resp.frame nak)⟩

/-- Settles O55: a queued frame leaves the lock free in WFF, and an active one holds it. -/
theorem txBeginTakesLock : Obligations.TxBeginTakesLock := by
  intro s k f w _ queued wff
  have free : s.lock = .free := (lock_eq_free s).2 ⟨wff, by rw [queued]; rfl⟩
  exact ⟨exec_txBegin_of_queued queued free k, (lock_eq_heldTx _).2 ⟨wff, rfl⟩⟩

/-- Settles O56: the two results of the write. -/
theorem txEndWritesFrame : Obligations.TxEndWritesFrame := by
  intro s f w active
  refine ⟨⟨_, exec_txEnd_of_active active .ok, fun c => ?_, rfl⟩, fun m _ => exec_txEnd_of_active active (.fail m)⟩
  exact Stats.bump_get s.txStats (ftype f) c

/-- Settles O57. -/
theorem rxArriveAppends : Obligations.RxArriveAppends := fun s bs => exec_rxArrive bs s

/-- Settles O58: the counter of each name. -/
theorem statsReadReturnsCount : Obligations.StatsReadReturnsCount := by
  intro s c
  rw [exec_statsRead, exec_statsRead]
  cases c with
  | ack | nak | can | data | oof => exact ⟨rfl, rfl⟩

end Sys2Proof.Proofs
end

section
/-! What a step appends to the wire: nothing, or the bytes from the start of one frame (43_link_io.md R202, R207, R208;
70_reset_and_hazards.md R270). -/

namespace Sys2Proof.Proofs

open Sys2Proof Sys2Proof.Machine

/-- The frames whose bytes may go out next: the one whose write is in flight and the pending response's, if valid. -/
def MaySend (s : State) (f : Frame) : Prop :=
  ((∃ w, s.tx = .active f w) ∨ s.resp.frame = some f) ∧ validSent s.params f

/-- From `s` to `t` the wire grows by the start of `w`, or by the whole of it. -/
def WritesFrom (w : List Byte) (s t : State) : Prop := ∃ m ≤ w.length, t.txw = s.txw ++ w.take m

/-- A draw beyond the frame's length writes the frame whole (log 9). -/
theorem writesFrom_of_take {w : List Byte} {s t : State} {m : Nat} (h : t.txw = s.txw ++ w.take m) :
    WritesFrom w s t := ⟨min m w.length, Nat.min_le_right .., by rw [h, List.take_eq_take_min]⟩

theorem sendResult_writesFrom (s : State) (f : Frame) (w : List Byte) (r : WriteResult) :
    WritesFrom w s (s.sendResult f w r) := by
  cases r with
  | ok => exact ⟨w.length, le_rfl, by rw [sendResult_ok, List.take_length]⟩
  | fail m => exact writesFrom_of_take (congrArg State.txw (sendResult_fail s f w m))

/-- RESET writes from the frame whose write it cuts short (70_reset_and_hazards.md R270). -/
theorem reset_writesFrom {s : State} {f : Frame} {w : List Byte} (active : s.tx = .active f w) (m : Nat) :
    WritesFrom w s (s.wireOut (s.tx.cutShort m)).resetBlock :=
  writesFrom_of_take (m := m) (by rw [active]; rfl)

theorem maySend_of_active {s : State} (h : Inv s) {f : Frame} {w : List Byte} (active : s.tx = .active f w) :
    MaySend s f ∧ w = encodeFrame f := by
  obtain ⟨encoded, valid⟩ := h.txActive f w active
  exact ⟨⟨.inl ⟨w, active⟩, valid⟩, encoded⟩

/-- The responses are single-byte frames (R202). -/
theorem validSent_of_resp_frame {r : Resp} {f : Frame} (h : r.frame = some f) (ps : Params) : validSent ps f := by
  cases r with
  | none => cases h
  | respAck | respNak => cases h; trivial

theorem maySend_of_pending {s : State} {f : Frame} (pending : s.resp.frame = some f) : MaySend s f :=
  ⟨.inr pending, validSent_of_resp_frame pending s.params⟩

/-- Of the operations only a response, the end of a host frame's write and RESET during it write at all. -/
theorem exec_writes_one_frame {i : Instr} {s t : State} (h : Inv s) (hi : exec i s = .next t) :
    t.txw = s.txw ∨ ∃ f, MaySend s f ∧ WritesFrom (encodeFrame f) s t := by
  rcases exec_cases hi with ⟨m, rfl⟩ | effect
  · cases busy : s.tx.isActive with
    | false => exact .inl (by simp [cutShort_of_not_active busy])
    | true =>
      obtain ⟨f, w, active⟩ := (isActive_eq_true s.tx).1 busy
      obtain ⟨may, rfl⟩ := maySend_of_active h active
      exact .inr ⟨f, may, reset_writesFrom active m⟩
  · cases effect with
    | respond k r f pending _ =>
      exact .inr ⟨f, maySend_of_pending pending, sendResult_writesFrom (s.flushInput k) f (encodeFrame f) r⟩
    | endTx r f w active =>
      obtain ⟨may, rfl⟩ := maySend_of_active h active
      exact .inr ⟨f, may, sendResult_writesFrom s f (encodeFrame f) r⟩
    | _ => exact .inl rfl

/-- Settles O17: an operation writes from one frame at most, and using up a schedule entry or the timeout's abort (log 8)
writes nothing. -/
theorem wireGrowsByOneFrame : Obligations.WireGrowsByOneFrame := by
  intro s t h hstep
  obtain ⟨r, rfl | ⟨_, _, _, rfl⟩ | ⟨i, hi⟩⟩ := step_cases hstep
  · exact .inl rfl
  · exact .inl rfl
  · have inv : Inv { s with sched := r } := inv_of_unread h rfl
    refine (exec_writes_one_frame inv hi).imp_right ?_
    rintro ⟨f, ⟨source, valid⟩, m, bound, written⟩
    exact ⟨f, m, source, valid, bound, written⟩

end Sys2Proof.Proofs
end

section
/-! The response a byte step leaves pending is the one its events ask for (43_link_io.md R200). -/

namespace Sys2Proof.Proofs

open Sys2Proof Sys2Proof.Machine

/-- The response R200 gives an event: RespAck for a Data frame whose checksum matches, RespNak for a malformed length, a
malformed kind or a checksum mismatch. -/
def responseAskedBy : Event → Resp
  | .frameOut (.data _ _ _ _ _) true _ => .respAck
  | .frameOut (.data _ _ _ _ _) false _ | .frameOut .ack _ _ | .frameOut .nak _ _ | .frameOut .can _ _ => .none
  | .report (.malformedLength _) | .report (.malformedKind _) | .report (.checksumMismatch _ _) => .respNak
  | .report (.lengthOutOfRange _) | .report .transportIoError | .report (.encodeLengthError _) => .none
  | .report (.illegalHostOp _) => .none

theorem responseAskedBy_eq_respAck {e : Event} :
    responseAskedBy e = .respAck ↔ ∃ n k c p x o, e = .frameOut (.data n k c p x) true o := by
  cases e with
  | report r => cases r <;> simp [responseAskedBy]
  | frameOut f chk lenOk => cases f <;> cases chk <;> simp [responseAskedBy]

theorem responseAskedBy_eq_respNak {e : Event} :
    responseAskedBy e = .respNak ↔ ∃ r, e = .report r ∧ (r.code = 0x01#8 ∨ r.code = 0x02#8 ∨ r.code = 0x03#8) := by
  cases e with
  | report r => cases r <;> simp [responseAskedBy, Report.code]
  | frameOut f chk lenOk => cases f <;> cases chk <;> simp [responseAskedBy]

/-- `t` comes after `s`, and a response is pending in `t` exactly when one of the events in between asks for it. -/
def Answered (s t : State) : Prop :=
  ∃ l, t.ev = s.ev ++ l ∧ ∀ r, r ≠ .none → (t.resp = r ↔ ∃ e ∈ l, responseAskedBy e = r)

theorem answered_of_no_event {s t : State} (ev : t.ev = s.ev) (resp : t.resp = .none) : Answered s t := by
  refine ⟨[], by simpa using ev, fun r hr => ?_⟩
  simpa [resp] using hr.symm

theorem answered_of_event {s t : State} {e : Event} (ev : t.ev = s.ev ++ [e]) (resp : t.resp = responseAskedBy e) :
    Answered s t := ⟨[e], ev, fun r _ => by simp [resp]⟩

/-- Behind an event that asks for nothing the second one decides. -/
theorem answered_of_two_events {s t : State} {e e' : Event} (ev : t.ev = s.ev ++ [e, e'])
    (nothing : responseAskedBy e = .none) (resp : t.resp = responseAskedBy e') : Answered s t :=
  ⟨[e, e'], ev, fun r hr => by simp [resp, nothing, hr.symm]⟩

theorem byteStep_answered {b : Byte} {sel : Bool} {f : State → State} {s t : State} (resp : s.resp = .none)
    (h : byteStep b sel f s = .next t) (take : Answered s (f s.consume)) : Answered s t := by
  rcases byteStep_cases b sel f s with ⟨_, e⟩ | ⟨_, _, e⟩ | ⟨_, _, e⟩ <;> cases e.symm.trans h
  · exact answered_of_no_event rfl resp
  · exact take

theorem takeLength_answered {s : State} (resp : s.resp = .none) (b : Byte) : Answered s (takeLength b s) := by
  rcases takeLength_cases b s with ⟨_, e⟩ | ⟨_, _, e⟩ | ⟨_, _, e⟩ <;> rw [e]
  · exact answered_of_event rfl rfl
  · exact answered_of_no_event rfl resp
  · exact answered_of_event rfl resp

theorem completeFrameAt_answered (b : Byte) (s : State) : Answered s (completeFrameAt b s) := by
  rcases completeFrameAt_cases b s with ⟨_, e⟩ | ⟨k, _, e⟩
  · rw [e]; exact answered_of_event rfl rfl
  · rcases completeData_cases k b s with ⟨_, e'⟩ | ⟨_, e'⟩ <;> rw [e, e']
    · exact answered_of_event rfl rfl
    · exact answered_of_two_events rfl rfl rfl

theorem exec_isByteStep_answered {i : Instr} {s t : State} (hi : i.isByteStep = true) (resp : s.resp = .none)
    (h : exec i s = .next t) : Answered s t := by
  cases i with
  | rxSof => exact byteStep_answered resp ((exec_rxSof s).symm.trans h) (answered_of_no_event rfl resp)
  | rxAck => exact byteStep_answered resp ((exec_rxAck s).symm.trans h) (answered_of_event rfl resp)
  | rxNak => exact byteStep_answered resp ((exec_rxNak s).symm.trans h) (answered_of_event rfl resp)
  | rxCan => exact byteStep_answered resp ((exec_rxCan s).symm.trans h) (answered_of_event rfl resp)
  | rxNoise b => exact byteStep_answered resp ((exec_rxNoise b s).symm.trans h) (answered_of_no_event rfl resp)
  | rxLen b =>
    exact byteStep_answered resp ((exec_rxLen b s).symm.trans h) (takeLength_answered (s := s.consume) resp b)
  | rxKind b => exact byteStep_answered resp ((exec_rxKind b s).symm.trans h) (answered_of_no_event rfl resp)
  | rxCmd b => exact byteStep_answered resp ((exec_rxCmd b s).symm.trans h) (answered_of_no_event rfl resp)
  | rxPay b => exact byteStep_answered resp ((exec_rxPay b s).symm.trans h) (answered_of_no_event rfl resp)
  | rxChk b => exact byteStep_answered resp ((exec_rxChk b s).symm.trans h) (completeFrameAt_answered b s.consume)
  | _ => cases hi

/-- Settles O21: the events of a byte step ask for the response it leaves, in the words of R200. -/
theorem responseMatchesOutcome : Obligations.ResponseMatchesOutcome := by
  intro i s t hi resp h
  obtain ⟨l, ev, asked⟩ := exec_isByteStep_answered hi resp h
  refine ⟨l, ev, (asked .respAck nofun).trans ⟨?_, ?_⟩, (asked .respNak nofun).trans ⟨?_, ?_⟩⟩
  · rintro ⟨e, mem, asks⟩
    obtain ⟨n, k, c, p, x, o, rfl⟩ := responseAskedBy_eq_respAck.1 asks
    exact ⟨n, k, c, p, x, o, mem⟩
  · rintro ⟨n, k, c, p, x, o, mem⟩
    exact ⟨_, mem, rfl⟩
  · rintro ⟨e, mem, asks⟩
    obtain ⟨r, rfl, code⟩ := responseAskedBy_eq_respNak.1 asks
    exact ⟨r, mem, code⟩
  · rintro ⟨r, mem, code⟩
    exact ⟨_, mem, responseAskedBy_eq_respNak.2 ⟨r, rfl, code⟩⟩

end Sys2Proof.Proofs
end

section
/-! The steps that run no operation of the spec: the hold without a byte, the refusals and the timeout (logs 1, 8, 14). -/

namespace Sys2Proof.Proofs

open Sys2Proof Sys2Proof.Machine

/-- Only the byte step's turn looks at `rxq` and `resp` before it decodes (42_frame_decoder.md R164). -/
theorem takeTurn_of_ne_rxByte {m : Move} (h : m ≠ .rxByte) (s : State) :
    takeTurn m s = runDecoded (decodeAt s m) s := by
  simp [takeTurn, holdsByte, h]

theorem takeTurn_of_rejected {m : Move} {s : State} {e : DecodeError} (h : m ≠ .rxByte)
    (rejected : decodeAt s m = .rejected e) : takeTurn m s = .refused (.noOperation e) := by
  rw [takeTurn_of_ne_rxByte h, rejected]
  rfl

/-- A response is one byte, so no failed write of it wrote more (43_link_io.md R202). -/
theorem decodeAt_respond_fail_of_one_lt {m : Nat} (h : 1 < m) (s : State) (k : Nat) :
    decodeAt s (.respond k (.fail m)) = .rejected (.responseResult m) := if_neg (Nat.not_le.2 h)

/-- The encoder knows a frame type by the frame's first byte (30_encoding.md R71, R73). -/
theorem decodeFrameType_of_notMem {b : Byte} (h : b ∉ [0x01#8, 0x06#8, 0x15#8, 0x18#8]) (bus : FrameBus) :
    decodeFrameType b bus = .rejected (.noFrameType b) := by
  obtain ⟨sof, ack, nak, can⟩ : b ≠ Config.sof ∧ b ≠ Config.ack ∧ b ≠ Config.nak ∧ b ≠ Config.can := by
    simpa [Config.sof, Config.ack, Config.nak, Config.can] using h
  rw [decodeFrameType, if_neg ack, if_neg nak, if_neg can, if_neg sof]

theorem takeTurn_rxTimeout (s : State) : takeTurn .rxTimeout s = .next s.interbyteTimeout :=
  takeTurn_of_ne_rxByte (m := .rxTimeout) nofun s

theorem interbyteTimeout_of_absent {s : State}
    (h : s.params.rxInterbyteTimeout = none ∨ s.st = .wff ∨ s.rxq ≠ []) : s.interbyteTimeout = s := by
  rcases interbyteTimeout_cases s with ⟨_, e⟩ | ⟨⟨present, assembling, empty⟩, _⟩
  · exact e
  · rcases h with absent | wff | waiting
    · rw [absent] at present; cases present
    · exact absurd wff assembling
    · exact absurd empty waiting

theorem interbyteTimeout_of_present {s : State} (present : s.params.rxInterbyteTimeout ≠ none) (assembling : s.st ≠ .wff)
    (empty : s.rxq = []) : s.interbyteTimeout = s.abortFrame :=
  if_pos ⟨Option.isSome_iff_ne_none.2 present, assembling, empty⟩

/-- Settles O7: an empty schedule, the hold, the three refusals and the timeout, in this order. -/
theorem stepWithoutOperation : Obligations.StepWithoutOperation := by
  refine ⟨fun s hs => step_nil hs, fun s rest hs empty => ?_, fun s rest hs => ?_, fun s rest k m hs long => ?_,
    fun s rest b bus hs unknown => ?_, fun s rest hs => ?_⟩ <;> rw [step_cons hs]
  · exact takeTurn_rxByte_of_hold (s := { s with sched := rest }) (.inl empty)
  · exact takeTurn_of_rejected nofun rfl
  · exact takeTurn_of_rejected nofun (decodeAt_respond_fail_of_one_lt long _ k)
  · exact takeTurn_of_rejected nofun (decodeFrameType_of_notMem unknown bus)
  · rw [takeTurn_rxTimeout]
    refine ⟨fun absent => ?_, fun present assembling empty => ?_⟩
    · rw [interbyteTimeout_of_absent (s := { s with sched := rest }) absent]
    · rw [interbyteTimeout_of_present (s := { s with sched := rest }) present assembling empty]
      exact ⟨_, rfl, abortFrame_resp_cases { s with sched := rest }, rfl⟩

end Sys2Proof.Proofs
end

section
/-! The conditions and what a step can raise (60_exceptions.md R240, R241, R243, R250). -/

namespace Sys2Proof.Proofs

open Sys2Proof Sys2Proof.Machine

/-- Settles O60, by the two tables of codes. -/
theorem conditionCodes : Obligations.ConditionCodes := fun _ _ _ _ =>
  ⟨rfl, rfl, rfl, rfl, rfl, rfl, rfl, rfl, rfl, rfl, rfl⟩

/-! At most one report a step (R243). -/

/-- `t` comes after `s` with nothing, one event, or a frame and then one report. -/
def RaisesAtMostOneReport (s t : State) : Prop :=
  ∃ l : List Event, t.ev = s.ev ++ l ∧ (l = [] ∨ (∃ e, l = [e]) ∨ ∃ f c o r, l = [.frameOut f c o, .report r])

theorem raisesAtMostOneReport_of_ev_eq {s t : State} (h : t.ev = s.ev) : RaisesAtMostOneReport s t :=
  ⟨[], by simpa using h, .inl rfl⟩

theorem raisesAtMostOneReport_of_event {s t : State} {e : Event} (h : t.ev = s.ev ++ [e]) : RaisesAtMostOneReport s t :=
  ⟨[e], h, .inr (.inl ⟨e, rfl⟩)⟩

theorem raisesAtMostOneReport_of_frame_report {s t : State} {f : Frame} {c o : Bool} {r : Report}
    (h : t.ev = s.ev ++ [.frameOut f c o, .report r]) : RaisesAtMostOneReport s t :=
  ⟨_, h, .inr (.inr ⟨f, c, o, r, rfl⟩)⟩

theorem sendResult_raisesAtMostOneReport (s : State) (f : Frame) (w : List Byte) (r : WriteResult) :
    RaisesAtMostOneReport s (s.sendResult f w r) := by
  cases r with
  | ok => exact raisesAtMostOneReport_of_ev_eq rfl
  | fail m => exact raisesAtMostOneReport_of_event rfl

theorem raisesAtMostOneReport_of_effect {s t : State} (h : ExecEffect s t) : RaisesAtMostOneReport s t := by
  cases h with
  | single | shortLength | startOutOfRange | badKind | data | hostReport => exact raisesAtMostOneReport_of_event rfl
  | badChecksum => exact raisesAtMostOneReport_of_frame_report rfl
  | respond k r f => exact sendResult_raisesAtMostOneReport (s.flushInput k) f _ r
  | endTx r f w => exact sendResult_raisesAtMostOneReport s f w r
  | _ => exact raisesAtMostOneReport_of_ev_eq rfl

theorem exec_raisesAtMostOneReport {i : Instr} {s t : State} (h : exec i s = .next t) : RaisesAtMostOneReport s t := by
  rcases exec_cases h with ⟨m, rfl⟩ | effect
  · exact raisesAtMostOneReport_of_ev_eq rfl
  · exact raisesAtMostOneReport_of_effect effect

/-- Settles O16: a used-up schedule entry, the timeout's abort (log 8) and RESET raise nothing, and of the effects only a
checksum mismatch adds two events, its frame first. -/
theorem atMostOneReportPerStep : Obligations.AtMostOneReportPerStep := by
  intro s t h
  obtain ⟨r, rfl | ⟨_, _, _, rfl⟩ | ⟨i, hi⟩⟩ := step_cases h
  · exact raisesAtMostOneReport_of_ev_eq rfl
  · exact raisesAtMostOneReport_of_ev_eq rfl
  · exact exec_raisesAtMostOneReport (s := { s with sched := r }) hi

/-! No operation is refused, and only a byte step outside the rules faults (R241). -/

/-- An operation that does not answer a next state is a byte step that faults on registers outside the rules (I1). -/
theorem exec_next_or_fault (i : Instr) (s : State) : (∃ t, exec i s = .next t) ∨
    i.isByteStep = true ∧ s.outsideRules = true ∧ exec i s = .fault .decoderOutsideRules := by
  cases byte : i.isByteStep with
  | false => exact .inl (exec_completes_of_not_isByteStep byte s)
  | true =>
    obtain ⟨b, sel, f, run⟩ := exec_isByteStep byte s
    rcases byteStep_cases b sel f s with ⟨_, e⟩ | ⟨_, outside, e⟩ | ⟨_, _, e⟩
    · exact .inl ⟨_, run.trans e⟩
    · exact .inr ⟨rfl, outside, run.trans e⟩
    · exact .inl ⟨_, run.trans e⟩

/-- Settles O25: a refusal and a fault are no next state, so only the byte step's fault is left. -/
theorem execCompletesInsideRules : Obligations.ExecCompletesInsideRules := by
  refine ⟨fun i s inside => exec_completes ((outsideRules_eq_false s).2 inside) i, fun i s r refused => ?_,
    fun i s r fault => ?_⟩
  · rcases exec_next_or_fault i s with ⟨t, e⟩ | ⟨_, _, e⟩
    · cases e.symm.trans refused
    · cases e.symm.trans refused
  · rcases exec_next_or_fault i s with ⟨t, e⟩ | ⟨byte, outside, _⟩
    · cases e.symm.trans fault
    · exact ⟨byte, (outsideRules_eq_true s).1 outside⟩

/-! The step runs the operation it decodes (R250). -/

theorem isByteStep_of_encode_eq_onWire {i : Instr} {b : Byte} (h : encode i = onWire b) : i.isByteStep = true := by
  cases i with
  | rxSof | rxAck | rxNak | rxCan | rxNoise _ | rxLen _ | rxKind _ | rxCmd _ | rxPay _ | rxChk _ => rfl
  | _ => cases h

/-- What the RX agent's move is read as takes the byte at the head of `rxq`. -/
theorem isByteStep_of_decodeAt_rxByte {s : State} {i : Instr} (h : decodeAt s .rxByte = .instr i) :
    i.isByteStep = true := by
  cases queue : s.rxq with
  | nil => simp [decodeAt, fetch, decode, queue] at h
  | cons b q =>
    have decoded : decodeByte s.phase b = .instr i := by simpa [decodeAt, fetch, decode, queue] using h
    obtain ⟨_, _, enc⟩ := spec_of_decodeByte_eq decoded
    exact isByteStep_of_encode_eq_onWire enc

theorem holdsByte_iff (s : State) (m : Move) : holdsByte s m = true ↔ m = .rxByte ∧ (s.rxq = [] ∨ s.resp ≠ .none) := by
  simp [holdsByte]

/-- Every byte step holds without a byte or with a response pending (42_frame_decoder.md R164, cases 1 and 2). -/
theorem exec_isByteStep_of_hold {i : Instr} {s : State} (byte : i.isByteStep = true)
    (quiet : s.rxq = [] ∨ s.resp ≠ .none) : exec i s = .next s := by
  obtain ⟨b, sel, f, run⟩ := exec_isByteStep byte s
  have notOffered : s.offers b = false := by
    rcases quiet with empty | pending
    · simp [State.offers, empty]
    · simp [State.offers, pending]
  rw [run, byteStep_of_not_enabled (by rw [notOffered, Bool.false_and])]

/-- Where the agent holds before it decodes, the decoded operation holds as well. -/
theorem takeTurn_of_decodeAt {m : Move} {s : State} {i : Instr} (h : decodeAt s m = .instr i) :
    takeTurn m s = exec i s := by
  by_cases hold : holdsByte s m = true
  · obtain ⟨rfl, quiet⟩ := (holdsByte_iff s m).1 hold
    rw [takeTurn_of_holdsByte hold, exec_isByteStep_of_hold (isByteStep_of_decodeAt_rxByte h) quiet]
  · rw [takeTurn, if_neg hold, h, runDecoded_instr]

/-- Settles O6: a step is the turn of the first move, and the turn runs what is decoded. -/
theorem stepRunsDecodedOperation : Obligations.StepRunsDecodedOperation := by
  intro s m rest i hs h
  rw [step_cons hs]
  exact takeTurn_of_decodeAt h

end Sys2Proof.Proofs
end

section
/-! Power-on, RESET and OPEN (70_reset_and_hazards.md R270 to R272). -/

namespace Sys2Proof.Proofs

open Sys2Proof Sys2Proof.Machine

/-- Every counter of a cleared set is 0 (10_state.md R39). -/
theorem get_cleared (c : Stat) : ({} : Stats).get c = 0 := by
  cases c with
  | ack | nak | can | data | oof => rfl

/-- Settles O59: the table of reset values; in WFF with an Idle slot the lock is Free. -/
theorem powerOnValues : Obligations.PowerOnValues :=
  ⟨rfl, rfl, rfl, (lock_eq_free State.reset).2 ⟨rfl, rfl⟩, fun c => ⟨get_cleared c, get_cleared c⟩, rfl, rfl, rfl⟩

theorem exec_reset (m : Nat) (s : State) : exec (.reset m) s = .next (s.wireOut (s.tx.cutShort m)).resetBlock := rfl

theorem resetBlock_lock (s : State) : s.resetBlock.lock = .free := (lock_eq_free s.resetBlock).2 ⟨rfl, rfl⟩

theorem cutShort_active (f : Frame) (w : List Byte) (m : Nat) : (TxSlot.active f w).cutShort m = w.take m := rfl

/-- Settles O42: the slot decides what RESET leaves on the wire, and the block takes its reset values. -/
theorem resetRestoresBlock : Obligations.ResetRestoresBlock := by
  intro s m
  have wire : (s.wireOut (s.tx.cutShort m)).resetBlock.txw = s.txw ++ s.tx.cutShort m := rfl
  refine ⟨_, exec_reset m s, rfl, resetBlock_lock _, fun f w active _ => ?_, fun quiet => ?_⟩
  · rw [wire, active, cutShort_active]
  · rw [wire, cutShort_of_not_active ((isActive_eq_false s.tx).2 quiet), List.append_nil]

theorem execOpenPort_of_idle {s : State} (idle : s.tx = .idle) :
    execOpenPort s = .next { s with st := .wff, resp := .none, tx := .queued .nak [0x15#8] } := by
  rcases execOpenPort_cases s with ⟨busy, _⟩ | ⟨_, e⟩
  · exact absurd idle busy
  · exact e

/-- Settles O43. -/
theorem openQueuesNak : Obligations.OpenQueuesNak := fun _ idle => execOpenPort_of_idle idle

end Sys2Proof.Proofs
end

section
/-! A truncated frame (70_reset_and_hazards.md R276): with no byte waiting, the decoder stays in the middle of a frame, and
only an arrival, RESET or OPEN reaches it. -/

namespace Sys2Proof.Proofs

open Sys2Proof Sys2Proof.Machine

/-- The operations that end the wait for the rest of a frame (R276). -/
def endsWait : Instr → Bool
  | .rxArrive _ | .reset _ | .openPort => true
  | _ => false

/-- A byte step has no byte to take, the send sequence needs the lock that the frame under assembly holds, and no other
operation writes `st` or `rxq` (20_memory.md R56). -/
theorem exec_keeps_wait {i : Instr} {s t : State} (assembling : s.st ≠ .wff) (empty : s.rxq = [])
    (stays : endsWait i = false) (h : exec i s = .next t) : t.st = s.st ∧ t.rxq = [] := by
  have locked : s.lock ≠ .free := fun free => assembling ((lock_eq_free s).1 free).1
  have holds (hold : exec i s = .next s) : t.st = s.st ∧ t.rxq = [] := by
    cases hold.symm.trans h
    exact ⟨rfl, empty⟩
  obtain ⟨_, _, stWriters, _, _, _, _, _, _, rxqWriters, _⟩ := itemsHaveTheirWriters i s t h
  cases i with
  | rxSof | rxAck | rxNak | rxCan | rxNoise _ | rxLen _ | rxKind _ | rxCmd _ | rxPay _ | rxChk _ =>
    exact holds (exec_isByteStep_of_hold rfl (.inl empty))
  | respTx k r =>
    rcases execRespTx_cases k r s with hold | ⟨_, _, free, _⟩
    · exact holds hold
    · exact absurd free locked
  | txBegin k =>
    rcases execTxBegin_cases k s with hold | ⟨_, _, _, free, _⟩
    · exact holds hold
    · exact absurd free locked
  | txEnd r => rw [execTxEnd_frame h]; exact ⟨rfl, empty⟩
  | rxArrive _ | reset _ | openPort => cases stays
  | _ =>
    have st : t.st = s.st := by simpa [Instr.isByteStep] using stWriters
    have rxq : t.rxq = s.rxq := by simpa [Instr.agent] using rxqWriters
    exact ⟨st, rxq.trans empty⟩

/-! The moves that name such an operation. -/

theorem endsWait_of_isByteStep {i : Instr} (byte : i.isByteStep = true) : endsWait i = false := by
  cases i with
  | rxArrive _ | reset _ | openPort => cases byte
  | _ => rfl

theorem endsWait_decodeBufOp (op : BitVec 4) (bus : CursorBus) : endsWait (decodeBufOp op bus) = false := by
  unfold decodeBufOp
  split_ifs <;> rfl

theorem endsWait_of_decodeFrameType {first : Byte} {bus : FrameBus} {i : Instr}
    (h : decodeFrameType first bus = .instr i) : endsWait i = false := by
  unfold decodeFrameType at h
  split_ifs at h <;> cases h <;> rfl

/-- At the host port only the codes of RESET and OPEN do (30_encoding.md R83). -/
theorem endsWait_decodeHostOp {op : BitVec 4} (noReset : op ≠ 0x1#4) (noOpen : op ≠ 0x2#4) (bus : HostBus) :
    endsWait (decodeHostOp op bus) = false := by
  rw [decodeHostOp, if_neg noReset, if_neg noOpen]
  split_ifs <;> rfl

theorem endsWait_of_decodeAt {s : State} {m : Move} {i : Instr} (noArrival : ∀ bs, m ≠ .arrive bs)
    (noReset : ∀ bus, m ≠ .hostCmd 0x1#4 bus) (noOpen : ∀ bus, m ≠ .hostCmd 0x2#4 bus)
    (h : decodeAt s m = .instr i) : endsWait i = false := by
  cases m with
  | rxByte => exact endsWait_of_isByteStep (isByteStep_of_decodeAt_rxByte h)
  | rxTimeout => cases h
  | respond k r =>
    cases r with
    | ok => cases h; rfl
    | fail n =>
      simp only [decodeAt, fetch, decode] at h
      split_ifs at h
      cases h
      rfl
  | arrive bs => exact absurd rfl (noArrival bs)
  | hostCmd op bus =>
    cases h
    exact endsWait_decodeHostOp (fun eq => noReset bus (eq ▸ rfl)) (fun eq => noOpen bus (eq ▸ rfl)) bus
  | cursor op bus => cases h; exact endsWait_decodeBufOp op bus
  | encoder first bus => exact endsWait_of_decodeFrameType h
  | beginTx _ | endTx _ | checksum _ _ _ _ | readStat _ => cases h; rfl

/-- Settles O27: a turn holds, or is an absent timeout's, or runs an operation that keeps the wait; the lock stays with the
decoder, and nothing goes out meanwhile (O18). -/
theorem truncatedFrameWaits : Obligations.TruncatedFrameWaits := by
  intro s t m rest h assembling empty hs noArrival noReset noOpen absent hstep
  have txw : t.txw = s.txw := noWriteDuringAssembly s t h assembling hstep
  have waits : t.st = s.st ∧ t.rxq = [] := by
    rw [step_cons hs] at hstep
    rcases takeTurn_cases hstep with rfl | ⟨timeout, rfl⟩ | ⟨i, decoded, run⟩
    · exact ⟨rfl, empty⟩
    · rw [interbyteTimeout_of_absent (s := { s with sched := rest }) (.inl (absent timeout))]
      exact ⟨rfl, empty⟩
    · exact exec_keeps_wait (s := { s with sched := rest }) assembling empty
        (endsWait_of_decodeAt noArrival noReset noOpen decoded) run
  obtain ⟨st, rxq⟩ := waits
  exact ⟨st, rxq, txw, (lock_eq_heldRx t).2 (st ▸ assembling)⟩

end Sys2Proof.Proofs
end
